-- ==== Sys2Proof/Word.lean ====
section
/-! DEFINITION. The word types of the Zifen ZN-7200 (spec 00 R5, R7; 01 R14). -/

namespace Sys2Proof

/-- One byte of memory. -/
abbrev Byte := BitVec 8
/-- A 32-bit word: an instruction word, an FP32 value. -/
abbrev W32 := BitVec 32
/-- A scalar register, a control register, an address. -/
abbrev W64 := BitVec 64
/-- A vector register (R14). -/
abbrev V512 := BitVec 512
/-- The name of an x register (R79). -/
abbrev XReg := BitVec 7
/-- The name of a v register (R79). -/
abbrev VReg := BitVec 5
/-- The name of a mask or of a format register (R79). -/
abbrev MReg := BitVec 3
/-- A stall code (R76, R77). -/
abbrev Stall := BitVec 2

end Sys2Proof
end

