-- ==== Sys2Proof/Config.lean ====
section
/-! DEFINITION. What the manual leaves to an implementation or leaves open: free values (constants with no body)
and the fixed sizes of the package (spec 00 R2). -/

namespace Sys2Proof.Config

/-- Free value: the n-th delay or choice the manual leaves open (log 4, 5). -/
opaque freeNat : Nat → Nat
/-- Free value: the package page (a 4 KiB page number of DRAM) that goes with a management context's counter page (R362 names
no register for it). -/
opaque packagePage : Nat → Nat
/-- Free value: the tick at which the boot ROM reaches WAIT (R463). -/
opaque bootTicks : Nat
/-- Free value: the firmware offered set of feature bits 0 to 63 (R459: "offered set"; bits 11 up are 0, R461). -/
opaque offered : BitVec 11
/-- Fuses: KEYHASH, the secret number of the identity key, the serial number (log 14). -/
opaque keyHash : List Byte
opaque identitySecret : Nat
opaque serial : BitVec 128
/-- Free value: the SHA-384 of the queue-processor microcode in force before the first load, as a number (log 14). -/
opaque bootUcode : BitVec 384
/-- Fuses: the least firmware and microcode SVN (R464, log 14). -/
opaque fwSvn : Nat
opaque ucSvn : Nat
/-- Free value: the silicon stepping (R459). -/
opaque stepping : BitVec 8

/-- Free value: the junction temperature in °C that a sample takes at a tick (R472). -/
opaque junction : Nat → BitVec 8

/-- Free value: the columns of a die's router mesh (log 103: R406 gives no geometry), between 1 and 72. -/
opaque meshColumns : Nat
/-- Free value: the router of a cluster's die that joins the station of the die, for the packets of the cluster (R406, log 103). -/
opaque edgeRouter : Nat → Nat
/-- Free value: the buffers, beside one, of a lane of a router link (R406 gives no number). -/
opaque laneBuffers : Nat
/-- Free value: the cluster of die 0 whose router joins a gateway (R406, log 120). -/
opaque gateCluster : Nat → Nat
/-- Free value: the gateway that serves accesses to the package's own peer (R399, log 120). -/
opaque ownGate : Nat
/-- Free value: what a delay of a packet of a planned kernel is, by the ticks since the kernel's dispatch and the place of the choice:
it repeats from run to run (R342). -/
opaque planNat : Nat → Nat → Nat
/-- Free value: the cluster of a die whose router the packets of its match unit enter (R381 gives the die only). -/
opaque rxeCluster : Nat → Nat

/-- Free value: the cells of the .local image of a launch, by kernel: cell number, word, and whether it is full (R58, R60; log 82:
the spec names no path by which an image comes into local store). -/
opaque localImage : Nat → List (Nat × W64 × Bool)

/-- Cores of the package (R2, R8). -/
def cores : Nat := 4608
/-- Clusters of the package. -/
def clusters : Nat := 288
/-- Row arrays of the package. -/
def rows : Nat := 1152
/-- Edge gateways of the package (R399, R406). -/
def gates : Nat := 6
/-- DRAM channels of the package (R308). -/
def channels : Nat := 128
/-- Bytes of a local store (R302). -/
def localBytes : Nat := 0x30000
/-- Bytes of a code store (R307). -/
def codeBytes : Nat := 0x40000
/-- Bytes of package DRAM (R308). -/
def dramBytes : Nat := 2 ^ 39

end Sys2Proof.Config
end

