-- ==== Sys2Proof/Machine/Tab.lean ====
section
/-! DEFINITION. Sparse tables: plain data, keys strictly rising, so that equal tables are equal lists. -/

namespace Sys2Proof.Machine

/-- A finite map from Nat, held as a list with strictly rising keys. -/
abbrev Tab (α : Type) := List (Nat × α)

/-- The entry of a key, if listed. -/
def Tab.find? {α : Type} : Tab α → Nat → Option α
  | [], _ => none
  | (k, v) :: r, n => if k = n then some v else Tab.find? r n

/-- The entry of a key, or the default that an unlisted key reads as. -/
def Tab.getD {α : Type} (t : Tab α) (n : Nat) (d : α) : α := (t.find? n).getD d

/-- Lists an entry, in its place. -/
def Tab.put {α : Type} : Tab α → Nat → α → Tab α
  | [], n, x => [(n, x)]
  | (k, v) :: r, n, x =>
    if n < k then (n, x) :: (k, v) :: r
    else if n = k then (n, x) :: r
    else (k, v) :: Tab.put r n x

/-- Removes an entry. -/
def Tab.erase {α : Type} : Tab α → Nat → Tab α
  | [], _ => []
  | (k, v) :: r, n => if k = n then Tab.erase r n else (k, v) :: Tab.erase r n

/-- Writes an entry of a table whose unlisted keys read as d: writing d removes the entry. -/
def Tab.setD {α : Type} [DecidableEq α] (t : Tab α) (n : Nat) (x d : α) : Tab α :=
  if x = d then t.erase n else t.put n x

/-- Changes a listed entry. -/
def Tab.modify {α : Type} (t : Tab α) (n : Nat) (f : α → α) : Tab α :=
  match t.find? n with
  | some v => t.put n (f v)
  | none => t

/-- Every key is above the bound, and the keys rise strictly. -/
def Tab.above {α : Type} : Nat → Tab α → Bool
  | _, [] => true
  | b, (k, _) :: r => b < k && Tab.above k r

/-- The canonical form: strictly rising keys. -/
def Tab.rising {α : Type} : Tab α → Bool
  | [] => true
  | (k, _) :: r => Tab.above k r

/-- The canonical form of a table whose unlisted keys read as d: no entry equals d. -/
def Tab.wfD {α : Type} [DecidableEq α] (t : Tab α) (d : α) : Bool := t.rising && t.all (fun e => e.2 != d)

end Sys2Proof.Machine
end

