-- ==== Sys2Proof/Syntax.lean ====
section
/-! DEFINITION. The instructions and events of the ZN-7200: one constructor per row of spec/opcode_table.json. -/

namespace Sys2Proof

/-- SEXT and ZEXT sizes (R93). -/
inductive ExtSize where
  | b | h | w
  deriving DecidableEq, Repr

/-- Branch conditions, CND (R87). -/
inductive Cond where
  | eqz | nez | ltz | gez | gtz | lez | odd | even
  deriving DecidableEq, Repr

/-- K of LD (R88). -/
inductive LdKind where
  | b | h | w | d | bu | hu | wu
  deriving DecidableEq, Repr

/-- K of ST (R88). -/
inductive StKind where
  | b | h | w | d
  deriving DecidableEq, Repr

/-- K of LDS (R88). -/
inductive LdsMode where
  | waitfull | take | peek
  deriving DecidableEq, Repr

/-- K of STS (R88). -/
inductive StsMode where
  | fill | putempty | clear
  deriving DecidableEq, Repr

/-- Scopes of LDAQ, STRL and FENCE (R88, R89). -/
inductive Scope where
  | core | clu | pkg | dom
  deriving DecidableEq, Repr

/-- Kinds of FENCE (R89). -/
inductive FenceKind where
  | all | load | store | sc
  deriving DecidableEq, Repr

/-- AMO function codes (R184). -/
inductive AmoOp where
  | add | and | or | xor | min | max | swap | fadd
  deriving DecidableEq, Repr

/-- FN[0] of CAS (R93). -/
inductive CasSize where
  | d | w
  deriving DecidableEq, Repr

/-- Precision codes of XB (R92): FP16, BF16, FP32, FP64. -/
inductive FPrec where
  | h | bf | s | d
  deriving DecidableEq, Repr

/-- Rounding field of FROUND (R92). -/
inductive RoundSel where
  | rne | rtz | rdn | rup | rmm | dyn
  deriving DecidableEq, Repr

/-- FSGN operations (R92). -/
inductive SgnOp where
  | abs | neg | nabs
  deriving DecidableEq, Repr

/-- FCVT format codes (R92). -/
inductive CvtFmt where
  | w | wu | d | du | f16 | bf16 | f32 | f64
  deriving DecidableEq, Repr

/-- VINT element types (R90). -/
inductive VIType where
  | i8 | i16 | i32 | i64
  deriving DecidableEq, Repr

/-- VFP element types (R90). -/
inductive VFType where
  | f16 | bf16 | f32 | f64
  deriving DecidableEq, Repr

/-- VPERM and VBCASTI element types (R90, R91). -/
inductive VPType where
  | i8 | i16 | i32 | i64 | f16 | bf16 | f32 | f64
  deriving DecidableEq, Repr

/-- VFCMP predicates (R90). -/
inductive FPred where
  | eq | lt | le | un
  deriving DecidableEq, Repr

/-- VG and VX element sizes (R90). -/
inductive ESz where
  | b | h | w | d
  deriving DecidableEq, Repr

/-- GANG sizes (R93). -/
inductive GangSize where
  | g2 | g4 | g8 | g16
  deriving DecidableEq, Repr

/-- GANG roles (R93). -/
inductive GangRole where
  | lead | follow
  deriving DecidableEq, Repr

/-- A thread slot of the package (R8, R13). -/
structure Tid where
  core : Nat
  slot : Nat
  deriving DecidableEq, Repr

/-- A thread and the port that answers it: the core of its own store, or a port of the fabric (R302, R399). -/
structure PortAnswer where
  tid  : Tid
  port : Nat
  deriving DecidableEq, Repr

/-- A number of a pair of ranks, with the message that carries it: the sender's package and its name there (R263, R264). -/
structure SentNumber where
  seq    : Nat
  peer   : Nat
  sendId : Nat
  deriving DecidableEq, Repr

/-- What one access does at its cell or bytes (R174 to R186). -/
inductive CellOp where
  | load (size : Nat)
  | store (size : Nat) (val : W64)
  | waitFull
  | take
  | peek
  | fill (val : W64)
  | putEmpty (val : W64)
  | clear
  | amo (op : AmoOp) (b : W64)
  | cas (size : Nat) (expected new : W64)
  | withdraw (seq : Nat)      -- takes back a waiting access sent before under that number (R181)
  deriving DecidableEq, Repr

/-- A request packet that another package's NI, or this one's, sends (R433, R434). -/
structure GReq where
  src    : Nat        -- issuing peer
  target : Nat        -- target peer
  seq    : Nat        -- end-to-end sequence number (R434)
  asid   : Nat
  tid    : Tid        -- issuing thread on the issuing peer
  va     : W64
  op     : CellOp
  ts     : Nat        -- tick at which it first left its NI (R435)
  limit  : Nat        -- FERETRY.LIMIT at issue (R181)
  pte    : Bool       -- FCSR.PTE at issue (R184)
  det    : Option (W64 × BitVec 32)  -- VTIME and program-order number of an AMO or load above DET0 (R188, R189)
  nomig  : Bool       -- its issuer has declined to migrate (R320)
  bounded : Bool      -- of the bounded class (R196, R344)
  xsize  : Nat        -- registers and wheel positions of its issuer, for R320
  wheelCount : Nat
  deriving DecidableEq, Repr

/-- What a response packet reports (R433, R437). -/
inductive GResult where
  | value (v : W64)      -- a read, or the old value of an atomic
  | ack                  -- a store performed, a deterministic update accepted
  | refusedFull          -- the target's wait or retry list is full (R182)
  | refusedUpdate        -- the target's overflow area is full (R188)
  | timeout              -- FETIMEOUT at the target (R181)
  | noXlate              -- a translation miss (R43)
  | protect              -- the page lacks the right (R318)
  | poisoned             -- a poisoned cell (R34)
  | migrate              -- the page has the migrate attribute (R320)
  | withdrawn            -- taken back without effect (R181)
  deriving DecidableEq, Repr

/-- A response or acknowledgement (R433). -/
structure GResp where
  peer   : Nat   -- the answering peer
  target : Nat   -- the peer to which it goes (R452)
  asid   : Nat
  num    : Nat   -- its own number among the responses of that peer (R434)
  seq    : Nat   -- the request that it answers
  result : GResult
  deriving DecidableEq, Repr

/-- KIND of a message header (R380). -/
inductive MsgKind where | eager | rendezvous | branch
  deriving DecidableEq, Repr

/-- A message header with its eager payload (R380). -/
structure Header where
  asid    : Nat
  srcPeer : Nat
  target  : Nat          -- the package to which it goes (R452)
  drank   : Nat
  srank   : Nat
  tag     : W32
  stamp   : W64
  seq     : Nat
  len     : Nat
  kind    : MsgKind
  saddr   : W64
  tid     : Tid
  cmbox   : Nat
  sendId  : Nat          -- the sender's NI entry
  born    : Nat          -- tick of its issue (R412)
  expires : Nat          -- tick until which it may be accepted: issue plus BOUND (R264)
  units   : List Nat     -- the eager units that hold its payload (R379)
  via     : Option (Nat × Nat) -- the package that forwards it, and its number there (R387)
  payload : List Byte
  pois    : List Nat     -- offsets of the payload at which a poisoned source cell begins (R269, R386)
  deriving DecidableEq, Repr

/-- What arrives in a packet of a landing: the bytes that another package pushes, the offsets of the payload at which poisoned source
cells begin, and the home in which the packet's part lands (R269, R385). -/
structure LandPart where
  bytes : List Byte
  pois  : List Nat
  home  : Nat
  deriving DecidableEq, Repr

/-- The pull that the receive engine of another package asks for: its landing there, the message, Ld, DEST, MBOX, FILL and SNAME (R385). -/
structure FarPull where
  peer    : Nat
  landing : Nat
  sendId  : Nat
  len     : Nat
  dest    : W64
  mbox    : Nat
  fill    : Bool
  tid     : Tid
  cmbox   : Nat
  deriving DecidableEq, Repr

/-- A pull request: of a landing of this package, or of another package. -/
inductive PullAsk where
  | landing (id : Nat)
  | far (p : FarPull)
  deriving DecidableEq, Repr

/-- The small context that migration ships (R321, step 3): pc is the address of its access instruction. -/
structure SmallCtx where
  home  : Nat × Tid       -- the peer and slot that it left
  landed : Option (Nat × Nat)  -- the peer and core where it has landed, in the word sent to the other packages
  asid  : Nat
  kernel : Nat
  ranks : List Nat        -- ranks the thread owns
  pc    : Nat
  xs    : List W64
  ms    : List W64
  fms   : List W64
  fcsr : W64
  vtime : W64
  tvec : W64
  tepc : W64
  tcause : W64
  tval : W64
  tsave : W64
  chk   : Bool
  feretry : Nat
  detlvl  : Nat
  wheelCount : Nat
  gap : Nat                  -- first tick at which it may issue (R77)
  detCount : BitVec 32
  cap : Nat                  -- CAP of its kernel (R29, R215)
  cancel : Bool              -- its kernel is cancelled (R337)
  pairs : List (Nat × Nat × Nat × List Nat) -- per pair of its ranks: the pair, next number to send, next number to take, and
                                            -- numbers from there on that are taken already (R263)
  back : Bool                -- it comes back to its source core: no core there takes it (R321)
  deriving DecidableEq, Repr

/-- Where a storage error strikes (R303, R306, R307, R309, R323, R361). -/
inductive ErrSite where
  | localCell (core cell : Nat)
  | dramGroup (group : Nat)
  | accEntry (row slot r n : Nat)
  | codeWord (cluster word : Nat)
  | overflowEntry (channel index : Nat)
  | eagerGroup (group : Nat)            -- 32 bytes of the eager buffer, 16 groups to a unit (R386)
  deriving DecidableEq, Repr

/-- An operation that a crossbar packet performs at its target port (R399, R402). -/
inductive PortOp where
  | loadOf (t : Tid) (due : Nat)              -- due: tick by which all its lanes are performed; 0 not begun
  | storeOf (t : Tid) (id : Nat) (due : Nat)
  | data (a : PortAnswer)                     -- back at the core: the data of a load
  | ack (a : PortAnswer) (id : Nat)           -- the acknowledgement of a store
  | refused (t : Tid)                         -- a full/empty access that a full list refused (R182)
  | source (id q : Nat)                       -- 512 source bytes of a message are read for its core, and are back there (R263)
  | sourceBack (id q : Nat)
  | read (id n : Nat)                         -- a turn of a streamer's request at another channel, and its bytes back (R390)
  | readBack (id n : Nat)
  | child (t : Tid)                           -- the child of a SPAWN (R200)
  | request (peer seq : Nat)                  -- a global request at its gateway (R399, R433)
  | access (src seq : Nat)                    -- a translated request at its channel
  | answer (src seq asid : Nat) (tid : Tid) (r : GResult) (bounded : Bool) -- its answer at the gateway of the way back
  | reply (r : GReq) (store : Option Nat) (res : GResult)             -- an answer at the core of the issuing thread
  deriving DecidableEq, Repr

/-- A flit: 64 payload bytes and the trailer (R417). -/
structure Flit where
  payload : List Byte
  trailer : W64
  deriving DecidableEq, Repr

/-- What packages tell each other about a barrier of a spanning group (R203 to R205, R219, R440). -/
inductive BarNotice where
  | opened (tick : Nat) (tide : Bool)  -- its first member has arrived there, at a tick, by GBAR.TIDE or by GBAR
  | arrived (top : W64)                -- all its members have arrived; the largest VTIME recorded
  | recall                             -- to the root: one of the arrivals is to be withdrawn
  | recalled                           -- from the root: the package's arrival is taken back
  deriving DecidableEq, Repr

/-- What a host read names: BAR 0 of function fn, its registers (0 the PF, 1 + n VF n), or BAR 2 of a virtual function, the DRAM share of
its partition (R456). -/
inductive HostSpace where
  | registers (fn : Nat)
  | share (vf : Nat)
  deriving DecidableEq, Repr

/-- The port of a RELEASE notice, and whether it is down (R445, R476). -/
structure ReleasedPort where
  port : Nat
  down : Bool
  deriving DecidableEq, Repr

/-- A request for a report of a function, and whether the report is written now (R465). -/
structure AttRequest where
  fn   : Nat
  done : Bool
  deriving DecidableEq, Repr

/-- What a boot image read over the host link gave (R464). -/
inductive ImageRead where | ok | readError
  deriving DecidableEq, Repr

/-- One instruction or event. The first argument of the 144 operation codes of R82 is the stall code ST (R76);
the 126 events stand after them and have no encoding, those that only the outside world starts last. -/
inductive Instr where
  /-- R105. Adds xa and xb modulo 2^64 into xd. -/
  | add (st : Stall) (d a b : XReg)
  /-- R105. Subtracts xb from xa modulo 2^64 into xd. -/
  | sub (st : Stall) (d a b : XReg)
  /-- R105. Bitwise AND of xa and xb into xd. -/
  | and (st : Stall) (d a b : XReg)
  /-- R105. Bitwise OR of xa and xb into xd. -/
  | or (st : Stall) (d a b : XReg)
  /-- R105. Bitwise exclusive-or of xa and xb into xd. -/
  | xor (st : Stall) (d a b : XReg)
  /-- R105. Shifts xa left by xb[5:0] into xd. -/
  | sll (st : Stall) (d a b : XReg)
  /-- R105. Shifts xa right logically by xb[5:0] into xd. -/
  | srl (st : Stall) (d a b : XReg)
  /-- R105. Shifts xa right arithmetically by xb[5:0] into xd. -/
  | sra (st : Stall) (d a b : XReg)
  /-- R106. Writes the low 64 bits of xa times xb to xd. -/
  | mul (st : Stall) (d a b : XReg)
  /-- R106. Writes the high 64 bits of the signed product to xd. -/
  | mulh (st : Stall) (d a b : XReg)
  /-- R106. Writes the high 64 bits of the unsigned product to xd. -/
  | mulhu (st : Stall) (d a b : XReg)
  /-- R107. Signed division of xa by xb, parking the thread 24 ticks. -/
  | div (st : Stall) (d a b : XReg)
  /-- R107. Unsigned division of xa by xb, parking the thread. -/
  | divu (st : Stall) (d a b : XReg)
  /-- R107. Signed remainder of xa by xb, parking the thread. -/
  | rem (st : Stall) (d a b : XReg)
  /-- R107. Unsigned remainder of xa by xb, parking the thread. -/
  | remu (st : Stall) (d a b : XReg)
  /-- R105. Sets xd to 1 when xa is signed-less than xb, else 0. -/
  | slt (st : Stall) (d a b : XReg)
  /-- R105. Sets xd to 1 when xa is unsigned-less than xb, else 0. -/
  | sltu (st : Stall) (d a b : XReg)
  /-- R105. Writes the signed minimum of xa and xb to xd. -/
  | min (st : Stall) (d a b : XReg)
  /-- R105. Writes the signed maximum of xa and xb to xd. -/
  | max (st : Stall) (d a b : XReg)
  /-- R105. Counts leading zero bits of xa into xd. -/
  | clz (st : Stall) (d a : XReg)
  /-- R105. Counts trailing zero bits of xa into xd. -/
  | ctz (st : Stall) (d a : XReg)
  /-- R105. Counts one bits of xa into xd. -/
  | popc (st : Stall) (d a : XReg)
  /-- R105. Sign-extends the low byte, half or word of xa into xd. -/
  | sext (st : Stall) (d a : XReg) (z : ExtSize)
  /-- R105. Zero-extends the low byte, half or word of xa into xd. -/
  | zext (st : Stall) (d a : XReg) (z : ExtSize)
  /-- R105. Writes xa AND NOT xb to xd. -/
  | andn (st : Stall) (d a b : XReg)
  /-- R105. Moves xa into xd when xb is nonzero, else keeps xd. -/
  | cmov (st : Stall) (d a b : XReg)
  /-- R108. Adds the sign-extended immediate to xa into xd. -/
  | addi (st : Stall) (d a : XReg) (imm : BitVec 10)
  /-- R108. ANDs xa with the sign-extended immediate into xd. -/
  | andi (st : Stall) (d a : XReg) (imm : BitVec 10)
  /-- R108. ORs xa with the zero-extended immediate into xd. -/
  | ori (st : Stall) (d a : XReg) (imm : BitVec 10)
  /-- R108. Shifts xa left by an immediate amount into xd. -/
  | slli (st : Stall) (d a : XReg) (sh : BitVec 6)
  /-- R108. Shifts xa right logically by an immediate amount into xd. -/
  | srli (st : Stall) (d a : XReg) (sh : BitVec 6)
  /-- R108. Shifts xa right arithmetically by an immediate amount into xd. -/
  | srai (st : Stall) (d a : XReg) (sh : BitVec 6)
  /-- R109. Loads the sign-extended 17-bit immediate into xd. -/
  | li (st : Stall) (d : XReg) (imm : BitVec 17)
  /-- R109. Shifts xd left 16 and ORs in a 16-bit immediate. -/
  | lim (st : Stall) (d : XReg) (imm : BitVec 16)
  /-- R110. Branches by OFF14 words when the condition on xa holds. -/
  | b (st : Stall) (c : Cond) (a : XReg) (off : BitVec 14)
  /-- R111. Decrements xa and branches when the result is nonzero. -/
  | dbnz (st : Stall) (a : XReg) (off : BitVec 14)
  /-- R112. Jumps by OFF17 words and writes the link to xd. -/
  | j (st : Stall) (d : XReg) (off : BitVec 17)
  /-- R112. Jumps to xa plus immediate and writes the link to xd. -/
  | jr (st : Stall) (d a : XReg) (imm : BitVec 10)
  /-- R146. FP32 addition rounded once under FCSR. -/
  | faddS (st : Stall) (d a b : XReg)
  /-- R146. FP32 subtraction rounded once under FCSR. -/
  | fsubS (st : Stall) (d a b : XReg)
  /-- R146. FP32 multiplication rounded once under FCSR. -/
  | fmulS (st : Stall) (d a b : XReg)
  /-- R146. FP32 division, parking the thread 20 ticks. -/
  | fdivS (st : Stall) (d a b : XReg)
  /-- R146. FP32 square root, parking the thread 20 ticks. -/
  | fsqrtS (st : Stall) (d a : XReg)
  /-- R147. FP32 minimumNumber of xa and xb. -/
  | fminS (st : Stall) (d a b : XReg)
  /-- R147. FP32 maximumNumber of xa and xb. -/
  | fmaxS (st : Stall) (d a b : XReg)
  /-- R146. FP32 fused multiply-add xa times xb plus xd. -/
  | fmaS (st : Stall) (d a b : XReg)
  /-- R146. FP64 addition rounded once under FCSR. -/
  | faddD (st : Stall) (d a b : XReg)
  /-- R146. FP64 subtraction rounded once under FCSR. -/
  | fsubD (st : Stall) (d a b : XReg)
  /-- R146. FP64 multiplication rounded once under FCSR. -/
  | fmulD (st : Stall) (d a b : XReg)
  /-- R146. FP64 division, parking the thread 32 ticks. -/
  | fdivD (st : Stall) (d a b : XReg)
  /-- R146. FP64 square root, parking the thread 32 ticks. -/
  | fsqrtD (st : Stall) (d a : XReg)
  /-- R147. FP64 minimumNumber of xa and xb. -/
  | fminD (st : Stall) (d a b : XReg)
  /-- R147. FP64 maximumNumber of xa and xb. -/
  | fmaxD (st : Stall) (d a b : XReg)
  /-- R146. FP64 fused multiply-add xa times xb plus xd. -/
  | fmaD (st : Stall) (d a b : XReg)
  /-- R149. Quiet FP32 compare writing -1, 0, 1 or 2 to xd. -/
  | fcmpS (st : Stall) (d a b : XReg)
  /-- R149. Signalling FP32 compare writing -1, 0, 1 or 2 to xd. -/
  | fcmpeS (st : Stall) (d a b : XReg)
  /-- R149. Quiet FP64 compare writing -1, 0, 1 or 2 to xd. -/
  | fcmpD (st : Stall) (d a b : XReg)
  /-- R149. Signalling FP64 compare writing -1, 0, 1 or 2 to xd. -/
  | fcmpeD (st : Stall) (d a b : XReg)
  /-- R150. Writes a one-hot class of xa at the given precision to xd. -/
  | fclass (st : Stall) (d a : XReg) (p : FPrec)
  /-- R153. Converts xa between integer and float formats into xd. -/
  | fcvt (st : Stall) (d a : XReg) (src dst : CvtFmt) (sat : Bool)
  /-- R151. Rounds xa to an integral value in its own format. -/
  | fround (st : Stall) (d a : XReg) (rm : RoundSel) (p : FPrec)
  /-- R152. Clears, inverts or sets the sign bit of xa into xd. -/
  | fsgn (st : Stall) (d a : XReg) (op : SgnOp) (p : FPrec)
  /-- R174. Loads a byte, half, word or doubleword, parking until data returns. -/
  | ld (st : Stall) (d a : XReg) (k : LdKind) (off : BitVec 7)
  /-- R175. Stores through the store buffer without parking. -/
  | st (st : Stall) (d a : XReg) (k : StKind) (off : BitVec 7)
  /-- R178. Full/empty load in WAITFULL, TAKE or PEEK mode. -/
  | lds (st : Stall) (d a : XReg) (mode : LdsMode) (off : BitVec 7)
  /-- R179. Full/empty store in FILL, PUTEMPTY or CLEAR mode. -/
  | sts (st : Stall) (d a : XReg) (mode : StsMode) (off : BitVec 7)
  /-- R184. Atomic 64-bit add at the cell, returning the old value. -/
  | amoAdd (st : Stall) (d a b : XReg)
  /-- R184. Atomic AND at the cell. -/
  | amoAnd (st : Stall) (d a b : XReg)
  /-- R184. Atomic OR at the cell. -/
  | amoOr (st : Stall) (d a b : XReg)
  /-- R184. Atomic exclusive-or at the cell. -/
  | amoXor (st : Stall) (d a b : XReg)
  /-- R184. Atomic signed minimum at the cell. -/
  | amoMin (st : Stall) (d a b : XReg)
  /-- R184. Atomic signed maximum at the cell. -/
  | amoMax (st : Stall) (d a b : XReg)
  /-- R184. Atomic swap at the cell. -/
  | amoSwap (st : Stall) (d a b : XReg)
  /-- R185. Atomic FP32 add under RNE at the cell's low word. -/
  | amoFadd (st : Stall) (d a b : XReg)
  /-- R186. Compare-and-swap of 8 or 4 bytes, returning the old value. -/
  | cas (st : Stall) (d a b : XReg) (z : CasSize)
  /-- R191. Doubleword acquire load at a named scope. -/
  | ldaq (st : Stall) (d a : XReg) (scope : Scope) (off : BitVec 7)
  /-- R191. Doubleword release store at a named scope. -/
  | strl (st : Stall) (d a : XReg) (scope : Scope) (off : BitVec 7)
  /-- R192. Parks until earlier accesses and named engine work are performed at the scope. -/
  | fence (st : Stall) (kind : FenceKind) (scope : Scope) (cpy msg mx : Bool)
  /-- R157. Loads 64 or 128 bytes into one register or a pair under a mask. -/
  | vld (st : Stall) (v : VReg) (a : XReg) (m : MReg) (pair : Bool) (off : BitVec 6)
  /-- R157. Stores 64 or 128 bytes from one register or a pair under a mask. -/
  | vst (st : Stall) (v : VReg) (a : XReg) (m : MReg) (pair : Bool) (off : BitVec 6)
  /-- R158. Gathers elements from xa plus scaled indices. -/
  | vldx (st : Stall) (v b : VReg) (a : XReg) (m : MReg) (e sc : ESz)
  /-- R158. Scatters elements to xa plus scaled indices. -/
  | vstx (st : Stall) (v b : VReg) (a : XReg) (m : MReg) (e sc : ESz)
  /-- R160. Lane-wise integer addition. -/
  | vadd (st : Stall) (d a b : VReg) (m : MReg) (t : VIType)
  /-- R160. Lane-wise integer subtraction. -/
  | vsub (st : Stall) (d a b : VReg) (m : MReg) (t : VIType)
  /-- R160. Lane-wise integer multiplication, low bits. -/
  | vmul (st : Stall) (d a b : VReg) (m : MReg) (t : VIType)
  /-- R160. Lane-wise signed minimum. -/
  | vmin (st : Stall) (d a b : VReg) (m : MReg) (t : VIType)
  /-- R160. Lane-wise signed maximum. -/
  | vmax (st : Stall) (d a b : VReg) (m : MReg) (t : VIType)
  /-- R160. Lane-wise AND. -/
  | vand (st : Stall) (d a b : VReg) (m : MReg) (t : VIType)
  /-- R160. Lane-wise OR. -/
  | vor (st : Stall) (d a b : VReg) (m : MReg) (t : VIType)
  /-- R160. Lane-wise exclusive-or. -/
  | vxor (st : Stall) (d a b : VReg) (m : MReg) (t : VIType)
  /-- R160. Lane-wise logical left shift. -/
  | vsll (st : Stall) (d a b : VReg) (m : MReg) (t : VIType)
  /-- R160. Lane-wise logical right shift. -/
  | vsrl (st : Stall) (d a b : VReg) (m : MReg) (t : VIType)
  /-- R160. Lane-wise arithmetic right shift. -/
  | vsra (st : Stall) (d a b : VReg) (m : MReg) (t : VIType)
  /-- R161. Lane-wise float addition. -/
  | vfadd (st : Stall) (d a b : VReg) (m : MReg) (t : VFType)
  /-- R161. Lane-wise float subtraction. -/
  | vfsub (st : Stall) (d a b : VReg) (m : MReg) (t : VFType)
  /-- R161. Lane-wise float multiplication. -/
  | vfmul (st : Stall) (d a b : VReg) (m : MReg) (t : VFType)
  /-- R161. Lane-wise fused multiply-add into vd. -/
  | vfma (st : Stall) (d a b : VReg) (m : MReg) (t : VFType)
  /-- R161. Lane-wise minimumNumber. -/
  | vfmin (st : Stall) (d a b : VReg) (m : MReg) (t : VFType)
  /-- R161. Lane-wise maximumNumber. -/
  | vfmax (st : Stall) (d a b : VReg) (m : MReg) (t : VFType)
  /-- R162. Lane-wise float compare writing a mask. -/
  | vfcmp (st : Stall) (g : MReg) (p : FPred) (a b : VReg) (m : MReg) (t : VFType)
  /-- R163. Lane-wise conversion between float precisions. -/
  | vfcvt (st : Stall) (d a : VReg) (m : MReg) (dst src : VFType)
  /-- R164. Permutes lanes of va by indices in vb. -/
  | vshuf (st : Stall) (d a b : VReg) (m : MReg) (t : VPType)
  /-- R165. Sums enabled lanes by a fixed tree into lane 0. -/
  | vredadd (st : Stall) (d a : VReg) (m : MReg) (t : VPType)
  /-- R165. Takes the maximum of enabled lanes by a fixed tree into lane 0. -/
  | vredmax (st : Stall) (d a : VReg) (m : MReg) (t : VPType)
  /-- R164. Selects each lane from va or vb by the mask. -/
  | vmerge (st : Stall) (d a b : VReg) (m : MReg) (t : VPType)
  /-- R164. Writes a mask of nonzero lanes of va. -/
  | vmask (st : Stall) (g : MReg) (a : VReg) (m : MReg) (t : VPType)
  /-- R166. Broadcasts the low bits of xs to every lane. -/
  | vbcast (st : Stall) (d : VReg) (x : XReg) (e : ESz)
  /-- R166. Extracts one lane into an x register. -/
  | vext (st : Stall) (x : XReg) (a : VReg) (e : ESz) (lane : BitVec 6)
  /-- R166. Inserts the low bits of xs into one lane. -/
  | vins (st : Stall) (d : VReg) (x : XReg) (e : ESz) (lane : BitVec 6)
  /-- R166. Broadcasts a 13-bit immediate extended to the type. -/
  | vbcasti (st : Stall) (d : VReg) (imm : BitVec 13) (t : VPType)
  /-- R168. Block-scaled signed 8-bit dot product accumulated into FP32 lanes. -/
  | vsdot (st : Stall) (d a b : VReg) (x : XReg)
  /-- R169. Quantises 16 FP32 lanes to SINT(8) into one byte quarter. -/
  | vscvt (st : Stall) (d a : VReg) (x : XReg)
  /-- R233. Joint row multiply-accumulate of a 32 x 128 tile into a slot. -/
  | mxmac (st : Stall) (a b c : XReg)
  /-- R233. Joint row multiply of a 32 x 128 tile into a slot from zero. -/
  | mxmul (st : Stall) (a b c : XReg)
  /-- R246. Drains a slot through scale, residual and dropout to local store. -/
  | mxdrain (st : Stall) (a b : XReg)
  /-- R245. Sets a slot's type and zeroes its entries. -/
  | mxzero (st : Stall) (a : XReg)
  /-- R245. Loads a slot from local store and sets its type. -/
  | acld (st : Stall) (a b : XReg)
  /-- R245. Stores a slot to local store. -/
  | acst (st : Stall) (a b : XReg)
  /-- R244. Writes the row configuration at its start. -/
  | mxcfg (st : Stall) (a : XReg)
  /-- R241. Sets the issuing core's scale declaration. -/
  | mxscl (st : Stall) (a b : XReg)
  /-- R231. Writes xa into a format register. -/
  | fmtset (st : Stall) (n : MReg) (a : XReg)
  /-- R231. Reads a format register into xd. -/
  | fmtget (st : Stall) (d : XReg) (n : MReg)
  /-- R263. Sends an eager or rendezvous two-sided message. -/
  | send (st : Stall) (a : XReg)
  /-- R266. Posts a receive or binds an eligible unexpected message. -/
  | recv (st : Stall) (a : XReg)
  /-- R270. Returns the length of the first matching unexpected message or -1. -/
  | probe (st : Stall) (d a : XReg)
  /-- R271. Waits until a mailbox counter reaches a count, then subtracts it. -/
  | mbwait (st : Stall) (a b : XReg)
  /-- R274. Multicasts a payload to a rank list or core bitmap. -/
  | mcast (st : Stall) (a : XReg)
  /-- R276. Sends an active copy message to a streamer. -/
  | copy (st : Stall) (a : XReg)
  /-- R280. Waits until masked chunks are landed or poisoned. -/
  | cwait (st : Stall) (d a b : XReg)
  /-- R279. Sets a chunk map's BASE and clears its bits. -/
  | cmap (st : Stall) (a b : XReg)
  /-- R200. Requests creation of one thread from a descriptor. -/
  | spawn (st : Stall) (d a : XReg)
  /-- R201. Ends the thread after leaving groups and draining its store buffer. -/
  | exit (st : Stall)
  /-- R202. Makes the thread a member of a group. -/
  | join (st : Stall) (a : XReg)
  /-- R202. Removes the thread from a group. -/
  | leave (st : Stall) (a : XReg)
  /-- R205. Arrives at a group barrier, optionally with the tide. -/
  | gbar (st : Stall) (a : XReg) (tide : Bool)
  /-- R207. Forms a gang as leader or waits as follower. -/
  | gang (st : Stall) (size : GangSize) (role : GangRole)
  /-- R210. Dissolves the gang, followers resuming at their xa. -/
  | split (st : Stall) (a : XReg)
  /-- R213. Advances the thread's virtual time by xa. -/
  | vtadv (st : Stall) (a : XReg)
  /-- R214. Opens a bounded region with minimum, maximum and handler. -/
  | topen (st : Stall) (d a b : XReg)
  /-- R217. Closes the innermost region, padding to its minimum. -/
  | tclose (st : Stall) (d : XReg)
  /-- R221. Reads a control register into xd. -/
  | csrr (st : Stall) (d : XReg) (n : BitVec 10)
  /-- R221. Writes xa into a control register, returning the old value. -/
  | csrw (st : Stall) (d a : XReg) (n : BitVec 10)
  /-- R223. Takes a trap with cause TRAPINSN and the code. -/
  | trap (st : Stall) (code : BitVec 10)
  /-- R224. Returns control to TEPC. -/
  | tret (st : Stall)
  /-- R101. A fixed-latency result lands in its register L ticks after issue. -/
  | registerWriteLanding (t : Tid)
  /-- R107. An integer divide or remainder writes its result and wakes its thread. -/
  | divideComplete (t : Tid)
  /-- R348. An FP divide or root ends its park, landing its result or taking FPEXC. -/
  | fpDivSqrtComplete (t : Tid)
  /-- R124. A trapping FP instruction issued with enables set ends its park of L ticks. -/
  | fpexcParkEnd (t : Tid)
  /-- R174. A parked load's data returns from a port, or from the own store, and the last one lands in its register and wakes
  the thread. -/
  | loadResponse (a : PortAnswer)
  /-- R173. A buffered store is performed in the own store, or acknowledged by a port, and its store-buffer entry frees. -/
  | storePerformed (a : PortAnswer) (id : Nat)
  /-- R181. A waiting FE access is re-examined 64 ticks after its last examination. -/
  | feReexamine (id : Nat)
  /-- R304. Waiting accesses of a cell are re-examined in park order in the tick after its FE bit changes. -/
  | feChangeReexamine (cell : Nat)
  /-- R182. An FE access refused by a full wait or retry list is retried 64 ticks later. -/
  | feRetry (t : Tid)
  /-- R218. A store held by a HOLD region is released at the close instant or overrun plus its index. -/
  | heldStoreRelease (t : Tid) (id : Nat)
  /-- R217. A padded TCLOSE reaches its close instant, pops the entry and wakes the thread. -/
  | tcloseCloseInstant (t : Tid)
  /-- R219. TICKS reaches a region's maximum before its TCLOSE, entering the handler region. -/
  | overrun (t : Tid)
  /-- R219. A handler region reaches its maximum, ending the context. -/
  | handlerOverrun (t : Tid)
  /-- R176. A detected lost global store is reported as a trap at the next instruction boundary. -/
  | storeLost (t : Tid)
  /-- R433. A global request reaches its target NI and is translated and performed in sequence order. -/
  | globalRequestArrival (r : GReq)
  /-- R433. A response or acknowledgement reaches the issuing NI. -/
  | globalResponseArrival (r : GResp)
  /-- R437. A request unanswered by ts + DBOUND is treated as performed zero times. -/
  | deliveryBoundExpiry (peer seq : Nat)
  /-- R435. A request on a failed route is sent again by the other ring direction every 65,536 ticks. -/
  | requestResend (peer seq : Nat)
  /-- R433. A request refused by a full retry list is retried by the issuing NI 64 ticks later. -/
  | niRetry (peer seq : Nat)
  /-- R321. A global access to a migrate page is answered by migrating the thread. -/
  | migrationAnswer (t : Tid) (peer : Nat) (fits : Bool)
  /-- R321. A migrating thread's small context lands in a slot and repeats its access. -/
  | migrationLanding (c : SmallCtx)
  /-- R200. A SPAWN's child is created or refused and the parent wakes. -/
  | spawnPlacement (t : Tid)
  /-- R341. The min tree samples LWM inputs and SWM at every multiple of 64. -/
  | minTreeSample
  /-- R341. The package LWM and SWM are published at the next multiple of 64. -/
  | lwmPublication
  /-- R341. Each package sends its context samples at every multiple of 1,024. -/
  | domainLwmSample
  /-- R341. Every package publishes the domain LWM of each spanning context. -/
  | domainLwmPublication (asid : Nat) (others : List W64)
  /-- R322. A deterministic AMO reaches its atomic unit and is accepted, overflowed or refused. -/
  | detAtomicAccept (t : Tid)
  /-- R323. The atomic unit applies its lowest entry stamped below the LWM, one per 2 ticks. -/
  | detAtomicApply (channel : Nat)
  /-- R410. A FENCE.SC completes when its window's announcements have reached the scope. -/
  | scFenceComplete (t : Tid)
  /-- R411. A group phase completes, waking members and applying the tide. -/
  | barrierComplete (asid group : Nat)
  /-- R440. A package's arrival for a spanning group reaches the root package. -/
  | barrierArrivalNotice (asid group peer : Nat) (n : BarNotice)
  /-- R440. The root's completion reaches a member package, which wakes members and turns banks. -/
  | barrierCompletionNotice (asid group : Nat) (maxVtime : W64)
  /-- R226. The row's four matching arrivals start a matrix instruction jointly. -/
  | matrixStart (row : Nat)
  /-- R373. A matrix instruction has written all its results, merging flags into four FCSRs. -/
  | matrixComplete (row : Nat)
  /-- R381. A message header reaches its match unit and is bound, queued, staged or refused. -/
  | headerArrival (h : Header)
  /-- R264. The sender's NI resends a refused header 64 ticks after the refusal reply. -/
  | headerResend (id : Nat)
  /-- R264. A header not accepted by issue plus BOUND makes SEND or MCAST trap REFUSED; of a header sent to another package,
  word that it is abandoned. -/
  | sendBoundExpiry (id : Nat)
  /-- R264. The RXE takes an abandon notice of a sender of a peer and counts the sequence number as queued. -/
  | abandonNotice (asid srank drank : Nat) (n : SentNumber)
  /-- R385. The RXE requests a rendezvous payload pull from the sender's streamer. -/
  | pullRequest (p : PullAsk)
  /-- R269. A message packet lands, setting cells full and incrementing the mailbox. -/
  | packetLanding (id q : Nat) (data : LandPart)
  /-- R269. The RXE writes STAT1 and fills STAT0 for a bound message. -/
  | statusFill (id : Nat)
  /-- R389. A copy or pull request reaches a streamer and is queued or refused. -/
  | copyRequestArrival (id : Nat)
  /-- R389. A request refused by a full streamer queue is retried every 64 ticks. -/
  | streamerRetry (id : Nat)
  /-- R370. A scale tile arrives over the side band and is placed in its section. -/
  | scaleTilePlace (id : Nat)
  /-- R390. A copy chunk lands with its fills and LANDED bit, or is dropped as poisoned. -/
  | chunkLanding (id c : Nat)
  /-- R402. A crossbar packet reaches its target port and is performed in source sequence order. -/
  | crossbarPacketArrival (src port seq : Nat) (op : PortOp)
  /-- R407. The ebb begins, stopping router lanes and shifting general packets along the preset cycle. -/
  | ebbStart
  /-- R407. The ebb ends and normal general-lane arbitration resumes. -/
  | ebbEnd
  /-- R467. PARTCMD APPLY writes a partition record from STAGE and binds its VF. -/
  | apply (p : Nat)
  /-- R467. PARTCMD CLEAR invalidates a partition record and unbinds its VF. -/
  | clear (p : Nat)
  /-- R470. PARTCMD MAPOUT removes a row from dispatch once it is free. -/
  | mapout (row : Nat)
  /-- R467. PARTCMD MAPIN returns a row to dispatch. -/
  | mapin (row : Nat)
  /-- R469. PARTCMD UCODE verifies and loads new queue-processor microcode. -/
  | ucode (r : ImageRead)
  /-- R467. A PARTCMD with a reserved OP is rejected with CODE 1. -/
  | partcmdReserved (val : W64)
  /-- R465. A written 1 at ATT +0x38 makes the device write a signed report. -/
  | attestationRequest (fn : AttRequest)
  /-- R472. TJ is sampled every 65,536 ticks, setting WARN or TRIP. -/
  | thermalSample (tj : BitVec 8)
  /-- R362. At every multiple of 1,024 ticks the counter pages are rewritten by the snapshot protocol. -/
  | counterSnapshot
  /-- R351. A fatal fault stops the context's threads and engines and writes error records. -/
  | contextFatalEnd (asid : Nat)
  /-- R354. A waiting higher-priority LAUNCH stops and saves a context. -/
  | preemption (asid : Nat)
  /-- R360. A saved context is restored once its cores are free. -/
  | restore (asid : Nat)
  /-- R327. The queue processor starts the head packet of the chosen queue every 32 ticks. -/
  | queuePacketStart
  /-- R330. A LAUNCH packet is accepted for dispatch. -/
  | launch (q : Nat)
  /-- R331. A FENCE packet reads its counter conditions as domain acquires. -/
  | fencePacket (q : Nat)
  /-- R331. A waiting FENCE packet reads its conditions again every 64 ticks. -/
  | fencePacketPass (q : Nat)
  /-- R331. A SIGNAL packet waits for earlier packets and kernels. -/
  | signal (q : Nat)
  /-- R331. A SIGNAL writes, adds or fills its counter and may raise an interrupt. -/
  | signalWrite (q : Nat)
  /-- R317. A PIN packet writes translation leaves for consecutive pages. -/
  | pin (q : Nat)
  /-- R325. An UNPIN packet invalidates leaves and quarantines frames. -/
  | unpin (q : Nat)
  /-- R311. A VIEWDEF packet registers or removes a region record. -/
  | viewdef (q : Nat)
  /-- R307. A CODELOAD packet copies code into the clusters' code stores. -/
  | codeload (q : Nat)
  /-- R332. A DETLVL packet waits for earlier kernels and sets the context's level. -/
  | detlvl (q : Nat)
  /-- R404. A SLOTPLAN packet loads a plan slot once no live kernel uses it. -/
  | slotplan (q : Nat)
  /-- R333. A waiting LAUNCH is placed when all its threads fit, retried on freed resources. -/
  | dispatch (k : Nat)
  /-- R334. A dispatched launch creates 64 threads per tick in index order. -/
  | threadCreation (k : Nat)
  /-- R419. A receiver checks a flit's CRC and LSEQ, keeping or discarding it. -/
  | flitReceive (link : Nat) (f : Flit)
  /-- R419. A sender resends from the first flit not covered by LACK. -/
  | replayResend (link : Nat) (lack : BitVec 12)
  /-- R449. A corrected lane bit error raises its counts and may make the lane due. -/
  | lanePrecorrectionError (link lane count : Nat)
  /-- R420. A lane's error window starts and its window count is cleared. -/
  | laneWindowStart
  /-- R421. A due lane is handed back and the link enters seven-lane mode at an 8-slot boundary. -/
  | laneHandback (link lane : Nat)
  /-- R421. A lane's training attempt ends in success or failure. -/
  | trainAttemptEnd (link lane : Nat) (ok : Bool)
  /-- R421. A trained lane returns and the link enters eight-lane mode at an 8-slot boundary. -/
  | laneReturn (link lane : Nat)
  /-- R423. A link loses lock. -/
  | linkLockLoss (link : Nat)
  /-- R423. A link pair fails, its replay buffer is resent and a spare is sought. -/
  | linkFail (link : Nat)
  /-- R448. The package optical switch attaches a free spare pair to a port. -/
  | spareAttach (port : Nat)
  /-- R448. An attached spare locks or fails to lock against its neighbour. -/
  | spareLock (link : Nat) (ok : Bool)
  /-- R444. PCMD DRAIN puts a port into DRAINING and sends HOLD notices. -/
  | drain (port : Nat)
  /-- R444. PCMD RELOCK starts training a DARK or DOWN port against an expected neighbour. -/
  | relock (port : Nat)
  /-- R443. A port command with a reserved OP is answered with CODE 1. -/
  | pcmdReserved (port : Nat)
  /-- R446. A neighbour's drain marker arrives on an incoming link. -/
  | drainMarkerArrival (port : Nat)
  /-- R444. A draining port's markers are acknowledged and received, and it goes DARK. -/
  | portDark (port : Nat)
  /-- R444. A port DARK for DARKLIM ticks begins an automatic RELOCK. -/
  | darklimExpiry (port : Nat)
  /-- R444. Every active pair of a relocking port locks and the port returns to ACTIVE. -/
  | relockLock (port : Nat)
  /-- R444. A relocking port finds another neighbour or times out and goes DOWN. -/
  | relockFail (port : Nat) (other : Bool)
  /-- R443. The NI applies or rejects a peer-table and ring-word update. -/
  | ptcmd
  /-- R416. A package whose TICKS alignment to the fibre reference clock cannot be kept marks its links down. -/
  | alignmentLoss
  /-- R375. A running MXMAC or MXMUL reaches its next k-block boundary, where pre-emption or a fatal end stops it. -/
  | kBlockBoundary (row : Nat)
  /-- R354. The microcode finishes writing the save area and the context's cores and rows become free. -/
  | saveComplete (asid : Nat)
  /-- R360. At tick tr every restored thread becomes ready and the in-flight matrix records restart. -/
  | restoreReady (asid : Nat)
  /-- R263. A streamer reads the last byte of a rendezvous pull and the sender's completion counter CMBOX is incremented. -/
  | rendezvousPullRead (id len : Nat)
  /-- R263. Word that a header was accepted at the RXE reaches the sender's NI and wakes the parked SEND or MCAST; or a RECV
  or PROBE reaches its match unit, or the unit's answer its thread (R266, R270, R381). -/
  | acceptanceReply (id : Nat)
  /-- R457. A host write of QTAIL exposes packets after earlier posted writes, as a release. -/
  | qtailWrite (q : Nat) (val : W64)
  /-- R326. A write of QCTL.EN = 1 lets the queue start packets. -/
  | qctlEnable (q : Nat) (val : W64)
  /-- R474. A write of QCTL.EN = 0 stops the queue and ends a waiting head packet's wait. -/
  | qctlDisable (q : Nat)
  /-- R328. A written RESUME restarts a halted queue at its halted packet. -/
  | qctlResume (q : Nat)
  /-- R326. RESUME with SKIP discards the halted packet and restarts after it. -/
  | qctlResumeSkip (q : Nat)
  /-- R337. A write to QCANCEL cancels the queue's kernels with that LID. -/
  | qcancel (q : Nat) (val : W64)
  /-- R326. A read of QSTAT returns ERRS and clears it. -/
  | qstatRead (q : Nat)
  /-- R462. The management controller raises the supply domains and asserts PWROK. -/
  | powerUp
  /-- R463. RESET_N release zeroes TICKS and starts the boot ROM up to WAIT. -/
  | resetRelease
  /-- R463. A written GO loads, verifies and starts the firmware image. -/
  | bootgo (r : ImageRead)
  /-- R468. CTXCMD CREATE makes an ASID live with its staged resources. -/
  | create (vf asid : Nat) (mgmt : Bool)
  /-- R468. CTXCMD DESTROY ends a context, unpins its pages and frees its ASID. -/
  | destroy (vf asid : Nat)
  /-- R461. A write of ACCEPTn stores the offered bits written, unless locked. -/
  | acceptWrite (vf n : Nat) (val : W64)
  /-- R442. A write of LANECLR clears FAILED lanes or frees a failed pair as a spare. -/
  | laneclrWrite (val : W64)
  /-- R442. A write of DBOUND stores at least 262,144. -/
  | dboundWrite (val : W64)
  /-- R451. A write of LTHRESH applies from each lane's next window start. -/
  | lthreshWrite (val : W64)
  /-- R459. A read of THERM returns WARN and clears it. -/
  | thermRead
  /-- R457. A host read through BAR 2 of the partition's DRAM share. -/
  | hostRead (space : HostSpace) (off : W64) (size : Nat)
  /-- R457. A posted host write through BAR 2, or through its FE window. -/
  | hostWrite (vf : Nat) (off : W64) (bytes : List Byte)
  /-- R459. A write to a device register that has no row of its own. -/
  | registerWrite (fn off : Nat) (val : W64)
  /-- R34. An uncorrectable storage error poisons cells and empties their FE bits. -/
  | uncorrectableError (site : ErrSite)
  /-- R303. The scrubber reads a cell or group and corrects or counts errors. -/
  | scrub (site : ErrSite) (corrected : Bool)
  /-- R351. A management notice ends a spanning context on another package. -/
  | contextEndNotice (asid cause origin : Nat) (val : W64)
  /-- R445. A package receiving a HOLD notice stops injecting requests across the draining link. -/
  | holdNotice (peer port : Nat)
  /-- R476. A package receiving a RELEASE notice ends its hold. -/
  | releaseNotice (peer : Nat) (port : ReleasedPort)
  /-- R472. Main power is removed from the package, so nothing on it runs and only fuses are kept. -/
  | powerRemoval
  deriving DecidableEq, Repr

end Sys2Proof
end

