-- ==== Sys2Proof/Machine/State.lean ====
section
/-! DEFINITION. The state of one ZN-7200 package, as plain data (spec 01, 09, 14 to 17, 19, 22, 23, 26), and the state
right after reset. -/

namespace Sys2Proof.Machine

/-- Why the machine stops. No step of the package raises one (Step.lean never runs an instruction without an issuing
thread). -/
inductive Fault where
  /-- Raised by the meaning of an instruction word when no thread issues it: the spec gives an instruction an effect only
  as issued by a thread. Safe. -/
  | noIssuingThread
  deriving DecidableEq, Repr

/-- Why an instruction has no meaning. -/
inductive Refusal where
  /-- Raised by exec's arm of an instruction that is not modelled. Safe. -/
  | notModelled (mnemonic : String)
  deriving DecidableEq, Repr

/-- Trap causes (R346). -/
inductive Cause where
  | illegal | feature | window | stallchk | align | protect | noxlate | fetimeout | overrun | nesting | nopeer
  | storelost | scaleseq | gangmismatch | fpexc | intdiv | refused | trapinsn | handleroverrun | cancelled | poison
  deriving DecidableEq, Repr

/-- A register field of an instruction (R79, R103). -/
inductive RegRef where
  | x (n : XReg) | v (n : VReg) | m (n : MReg) | fm (n : MReg)
  deriving DecidableEq, Repr

/-- What a landing changes (R22, R101, R154, R155): whole x and fm registers, the bits under a mask of v and m registers,
bits ORed into FCSR. -/
inductive Dst where
  | x (r : XReg) (val : W64)
  | v (r : VReg) (mask val : V512)
  | m (r : MReg) (mask val : W64)
  | fm (r : MReg) (val : W64)
  | flags (bits : W64)
  deriving DecidableEq, Repr

/-- A fixed-latency write that has not landed (R101). -/
structure PendWrite where
  due : Nat
  dst : Dst
  deriving DecidableEq, Repr

/-- An open bounded region (R28, R216). -/
structure Region where
  openTick : Nat
  min  : Nat
  max  : Nat
  hold : Bool
  hnd  : Bool
  desc : Nat
  deriving DecidableEq, Repr

/-- A byte that an access reaches (R40, R284). The bank of an exchange byte is chosen when the access is performed
(R305); a bit-plane byte is eight bits of DRAM bytes (R314); a global byte is translated at its target (R317). -/
inductive ByteLoc where
  | dram (a : Nat)
  | store (core off : Nat)
  | plane (bits : List (Nat × Nat))
  | global (peer va : Nat)
  deriving DecidableEq, Repr

/-- One part of a buffered store: an address, the bytes it reaches and what is done there (R173). -/
structure StorePart where
  addr : W64
  locs : List ByteLoc
  op   : CellOp
  out  : Bool                 -- it has set out for its place
  sent : Option (Nat × Nat)   -- the peer and number of its global request
  done : Bool                 -- performed
  acked : Bool                -- its acknowledgement is back (R399)
  deriving DecidableEq, Repr

/-- A store-buffer entry (R173, R218). -/
structure StoreEntry where
  id      : Nat
  parts   : List StorePart
  release : Bool            -- STRL, STS.FILL (R191, R179)
  held    : Option Nat      -- depth of the HOLD entry it is held for (R218)
  rel     : Bool            -- its release after a close or overrun is scheduled (R217, R218)
  sent    : Bool            -- it has left the store buffer
  ownDue  : Nat             -- tick by which its parts in the own store are performed (R302); 0 none
  bounded : Bool            -- issued with DEPTH above 0 (R196)
  born    : Nat             -- tick at which it left (R412)
  deriving DecidableEq, Repr

/-- One part of a parked access that is performed indivisibly: a lane, or one element of a lane that reads several through
a view (R288, R295, R315); its address and bytes, what is done there, its place in the destination in bits, and the value
once it is performed (R157, R158, R174, R178, R184). -/
structure Lane where
  lane : Nat                  -- the number of its lane
  addr : W64
  locs : List ByteLoc
  op   : CellOp
  bit  : Nat
  sent : Option (Nat × Nat)   -- the peer and number of its global request
  cover : List (Option Byte)  -- bytes of the thread's own stores that go to another package behind it (R173)
  atUnit : Bool               -- it waits at the atomic unit (R189)
  pois : List Nat             -- poisoned cells met
  val  : Option W64
  back : Bool                 -- its data has come back (R399)
  fail : Option Cause         -- it has no response within the delivery bound (R176)
  deriving DecidableEq, Repr

/-- Where a parked access writes its result. -/
inductive LoadDst where
  | x (d : XReg) (size : Nat) (signed : Bool)
  | v (d : VReg)
  | spawn (d : XReg)        -- the descriptor of a SPAWN: its words are kept (R200)
  deriving DecidableEq, Repr

/-- A parked memory access, with what it captured at issue: PTE, FERETRY.LIMIT and whether it is of the bounded class
(R174, R178, R181, R184, R196). -/
structure Access where
  lanes   : List Lane
  dst     : LoadDst
  pte     : Bool
  limit   : Nat
  bounded : Bool
  ownDue  : Nat             -- tick by which its lanes in the own store are performed (R302); 0 none
  deriving DecidableEq, Repr

/-- The matrix operation codes (R82). -/
inductive MxFn where | mac | mul | drain | zero | acld | acst | cfg | scl
  deriving DecidableEq, Repr

/-- A core's arrival at the row's wired barrier (R226): captured descriptors, formats and parameter block. -/
structure Arrival where
  fn   : MxFn
  xa   : W64
  xb   : W64
  xc   : W64
  fmtA : W64
  fmtB : W64
  blk  : List W64
  deriving DecidableEq, Repr

/-- A turn of a streamer's request: its source bytes by place in the turn, and whether each is poisoned; and the ports at which it is
still to be read, or from which its bytes are still to come (R389, R390). -/
structure CopyTurn where
  data : List (Nat × Byte × Bool)
  away : List Nat
  deriving DecidableEq, Repr

/-- A request of a streamer (R275, R389 to R392). -/
structure CopyReq where
  id      : Nat
  far     : Option FarPull -- the pull of another package's receive engine that it serves (R385)
  tileDue : Nat            -- tick at which its scale tile has crossed the side band, 0 when it is not on it (R409)
  kernel  : Nat
  tid     : Tid
  asid    : Nat
  channel : Nat
  src     : W64
  dst     : W64
  dcore   : Nat
  len     : Nat
  map     : Nat
  m0      : Nat
  fill    : Bool
  conv    : Bool
  half    : Bool
  planes  : Nat
  kb      : Nat
  scale   : W64
  seq     : W32
  slen    : Nat
  after   : List Nat       -- the issuer's buffered stores that come first (R259)
  queued  : Bool           -- accepted at its streamer
  active  : Bool           -- in progress there: at most 8 are (R389)
  tilePlaced : Bool
  got     : List CopyTurn  -- its turns, 512 source bytes each (R389)
  pois    : List Nat       -- places of the source at which poisoned cells were met (R386)
  chunks  : List Nat       -- chunks not yet landed or poisoned
  own     : Bool           -- its thread has not ended
  pull    : Option Nat     -- the landing whose rendezvous payload it reads
  views   : Tab (W64 × W64) -- the region records in force at issue (R311)
  span    : Nat            -- its bound from its acceptance (R394)
  limit   : Nat            -- tick by which its chunks land, as long as no matrix instruction holds them back
  rowIds  : List Nat       -- matrix instructions whose worst case has been added to the limit (R394)
  born    : Nat            -- tick of its issue (R412)
  deriving DecidableEq, Repr

/-- A posted receive (R265, R382). -/
structure Recv where
  asid   : Nat
  core   : Nat
  dest   : W64
  tag    : W32
  tmask  : W32
  src    : BitVec 16
  smask  : BitVec 16
  drank  : Nat
  mbox   : Nat
  fill   : Bool
  maxlen : Nat
  desc   : W64
  writer : Nat           -- the core whose engine access the landing is (R38, R284)
  kernel : Nat           -- the kernel of its issuer, whose slot plan its packets use (R405)
  views  : Tab (W64 × W64) -- the region records in force at issue (R311)
  deriving DecidableEq, Repr

/-- What a thread asks of its match unit, and the unit's answer on its way back (R266, R270). -/
inductive RxeAsk where
  | recv (r : Recv)
  | probe (d : XReg) (r : Recv)
  | done (d : Option XReg) (val : W64)
  | full (desc : W64)                     -- the posted list is full
  deriving DecidableEq, Repr

/-- What a parked thread waits for (R13). -/
inductive Wait where
  | divide (d : XReg) (val : W64)
  | fpEnd (writes : List Dst) (flags : BitVec 5)        -- FDIV, FSQRT (R348)
  | fpPark                                              -- an enable was set at issue (R124)
  | access (a : Access)                                 -- lanes are outstanding
  | ownStores (a : Access)                              -- its own stores to the cell come first (R173)
  | storeFull (e : StoreEntry)                          -- the store buffer is full (R173)
  | feWait (a : Access) (id : Nat)                      -- in a wait or retry list (R182)
  | feRefused (a : Access) (count : Nat)                -- refused by a full list, retried (R182)
  | fence (kind : FenceKind) (scope : Scope) (cpy msg mx : Bool) (stores : List Nat) -- the stores it waits for (R192)
  | scFence (due : Nat)                                 -- announced; completes at a tick (R194, R410)
  | mbwait (ctr : Nat) (amount : Nat) (since : Nat)
  | cwait (map : Nat) (mask : W64) (d : XReg)
  | gbar (group : Nat) (tide : Bool) (arrived : Bool)
  | tclose (d : XReg) (elapsed : Nat)
  | spawn (d : XReg) (words : List W64) (placing : Bool) -- its descriptor has landed; it has passed its checks (R200)
  | message (ids : List Nat) (desc : W64)                -- SEND, MCAST (R263, R274)
  | rxe (id : Nat) (ask : RxeAsk)                        -- RECV, PROBE (R266, R270)
  | messageStores (ids : List Nat) (desc : W64)          -- R259
  | copyFull (c : CopyReq)                              -- 64 copies are outstanding (R276)
  | matrix (a : Arrival)                                -- R226
  | exitDrain                                           -- R201, step 3
  | transit (peer : Nat) (a : Access)                   -- migrates (R321)
  deriving DecidableEq, Repr

/-- The run state of a slot's thread (R13). -/
inductive Run where
  | ready
  | parked (w : Wait)
  | followWait (size : GangSize)   -- waits in GANG.FOLLOW (R208)
  | stopped                        -- stopped for pre-emption (R354)
  deriving DecidableEq, Repr

/-- A word forwarded to a follower: due tick, address and word (R209). -/
structure Forward where
  due  : Nat
  pc   : Nat
  word : W32
  deriving DecidableEq, Repr

/-- Gang membership (R207, R209, R357). -/
inductive Gang where
  | none
  | leader (size : GangSize) (members : List Tid)
  | follower (leader : Tid) (lag : Nat) (words : List Forward)
  deriving DecidableEq, Repr

/-- The control registers of a thread (R19 to R27). -/
structure Csrs where
  fcsr    : W64
  vtime   : W64
  tvec    : W64
  tepc    : W64
  tcause  : W64
  tval    : W64
  tsave   : W64
  chk     : Bool
  feretry : W32
  detlvl  : BitVec 2
  deriving DecidableEq, Repr

/-- The trap registers and the instruction that an abandoned trap entry brings back (R349). -/
structure TrapEntry where
  tepc   : W64
  tcause : W64
  tval   : W64
  pc     : Nat
  gap    : Nat      -- a gap owed from before the trap (R77)
  born   : Nat      -- tick of the trap's decision (R348)
  lost   : Option (Nat × Nat × W64) -- the lost store that it reports (R176)
  hit    : Bool     -- a lost store was detected since its decision (R349)
  deriving DecidableEq, Repr

/-- A thread in its slot (R13, R45). -/
structure Thread where
  id       : Tid
  asid     : Nat
  kernel   : Nat
  xbase    : Nat
  xsize    : Nat
  vbase    : Nat
  vsize    : Nat
  wheel    : W64
  x        : Vector W64 128
  v        : Vector V512 32
  m        : Vector W64 8
  fm       : Vector W64 8
  csr      : Csrs
  regions  : List Region         -- innermost first
  pc       : Nat                 -- code address of the next instruction
  insn     : Nat                 -- code address of the latest issued instruction
  run      : Run
  gapUntil : Nat                 -- first tick at which it may issue (R77, R348)
  issuedAt : Nat                 -- tick of its latest issue
  pend     : List PendWrite
  pairs    : List (RegRef × Nat) -- open stall pairs with what is left of L (R103)
  sbuf     : List StoreEntry     -- oldest first
  lost     : List (Nat × Nat × W64) -- lost stores not yet reported, in their order: entry, part, address (R176, R349)
  detCount : BitVec 32           -- R396
  gang     : Gang
  cancel   : Bool                -- its kernel is cancelled (R337)
  cap      : Nat                 -- CAP of its kernel (R29)
  entry    : Option TrapEntry    -- a trap decided whose handler has not issued (R349)
  after    : Option (Cause × W64) -- a trap taken when the parked instruction completes (R212)
  ovr      : Bool                -- the parked instruction was overtaken by an overrun (R219)
  again    : Bool                -- a gang leader's next word was withdrawn: its followers have it already (R354)
  landed   : Bool                -- it has migrated here, and makes its access again as one of this package (R321)
  deriving DecidableEq, Repr

/-- A chunk map (R35). -/
structure ChunkMap where
  base     : BitVec 9
  landed   : W64
  poisoned : W64
  lastTick : Nat    -- tick of the latest landings, and the bits set in it (R36)
  lastLanded   : W64
  lastPoisoned : W64
  deriving DecidableEq, Repr

/-- A membership entry (R35, R358). -/
structure Member where
  group   : Nat
  slot    : Nat
  pending : Bool
  since   : Nat     -- tick of its JOIN (R203)
  deriving DecidableEq, Repr

/-- A scale declaration (R230, R241). -/
structure ScaleDecl where
  mode  : BitVec 2
  shift : Nat
  xb    : W64
  deriving DecidableEq, Repr

/-- Core-wide state (R35) with the core's issue and matrix-arrival items (R226, R339). -/
structure CoreRec where
  maps     : Tab ChunkMap
  mail     : Tab W32
  members  : List Member
  bank     : Bool
  exch     : Nat            -- E in bytes
  arrival  : Option (Tid × Arrival)
  arrQueue : List (Tid × Arrival)
  decl     : ScaleDecl
  lag      : Nat
  bgPtr    : Nat
  ownPtr   : Nat
  deriving DecidableEq, Repr

/-- A scale tile in a core's section of the scale buffer (R370). -/
structure Tile where
  col   : Nat
  seq   : W32
  half  : Bool
  off   : Nat
  bytes : List Byte
  deriving DecidableEq, Repr

/-- The open exact sum of an entry: a finite sum and the special values met (R237, R240). -/
structure Partial where
  sum    : Int
  posInf : Bool
  negInf : Bool
  nan    : Bool
  inval  : Bool
  deriving DecidableEq, Repr

/-- A k-block in the operand registers of a row: the plane words of the 32 A rows and of the 128 B columns, the scale bytes
of those lines, and the poisoned cells met (R363, R371). -/
structure OpBlock where
  a    : List (List W64)
  b    : List (List W64)
  sa   : List (List Nat)
  sb   : List (List Nat)
  pois : Nat
  deriving DecidableEq, Repr

/-- What one access of the row array gives for a k-block: a plane word, or the scale bytes of a line, and the poisoned cells met
(R371, R372). -/
structure MxItem where
  word   : W64
  scales : List Nat
  bad    : Nat
  deriving DecidableEq, Repr

/-- A started matrix instruction that has not completed (R226, R359). -/
structure InFlight where
  id     : Nat
  asid   : Nat
  kernels : List Nat
  tids   : List Tid
  arrs   : List Arrival      -- columns 0 to 3
  decls  : List ScaleDecl
  cfg    : W64
  ty     : BitVec 2          -- the slot type in force at its start (R250)
  kdone  : Nat
  flags  : BitVec 5
  poison : Bool
  begun  : Bool
  opnds  : List OpBlock      -- operand registers: the next k-blocks to compute, at most two (R363)
  endAt  : Nat               -- tick at which the k-block in computation ends, 0 when none is computed
  part   : List (List MxItem) -- by column, what has been read of the k-block in fetch (R372)
  workAt : Nat               -- first tick in which it reads or writes local store (R373)
  done   : Nat               -- entries of each slice read or written by ACLD, ACST or MXDRAIN (R376)
  granted : Nat              -- cells granted to an MXDRAIN in each core (R372)
  bad    : Nat               -- poisoned cells met that are not counted yet (R254)
  least  : Nat               -- no completion earlier than this tick, less the ticks skipped (R373)
  skipped : List Nat         -- ticks that slices 0 to 3 have skipped (R368)
  open_  : Tab Partial       -- key r * 128 + n
  deriving DecidableEq, Repr

/-- Row-wide state (R39, R230, R370). -/
structure RowRec where
  cfg       : W64
  types     : Tab (BitVec 2)
  acc       : Tab W64        -- key (slot * 32 + r) * 128 + n
  badAcc    : List Nat       -- entries struck by an uncorrectable error (R306)
  tiles     : List Tile
  band      : Nat            -- tick from which its side band is free (R409)
  queue     : List InFlight
  mappedOut : Bool
  mapoutReq : Bool           -- a MAPOUT waits for the row to be free (R470)
  deriving DecidableEq, Repr

/-- One arrival at a group barrier (R205). -/
structure GArrival where
  tid    : Tid
  vtime  : W64
  byGbar : Bool
  deriving DecidableEq, Repr

/-- A phase all of whose members have arrived: it wakes its members 40 ticks later (R203, R411). -/
structure Phase where
  arrivals : List GArrival
  tide     : Bool
  top      : W64             -- largest VTIME recorded on other packages
  deriving DecidableEq, Repr

/-- A group of a context (R203 to R205, R440). -/
structure Group where
  isOpen   : Bool
  set      : List Tid
  arrivals : List GArrival
  tide     : Bool
  openAt   : Nat × Nat         -- tick and package of the first arrival known
  sent     : Bool              -- this package's arrival has gone to the root
  recalls  : List Tid          -- threads whose arrival the root is asked to take back
  reopen   : Option (Nat × Nat × Bool) -- an earlier first arrival than was known when the arrival went: package, tick, kind
  left     : List (Tid × W64 × Nat) -- threads that have left since the last phase, with VTIME and tick (R203, R204)
  done     : List Phase        -- oldest first
  peers    : List Nat          -- other packages that hold members of the phase
  remote   : List (Nat × W64)  -- arrivals of other packages, with their largest VTIME
  deriving DecidableEq, Repr

/-- A fault detected in a context and not yet recorded (R353). -/
structure FaultRec where
  tick   : Nat
  cause  : Cause
  tid    : Option Tid
  kernel : Nat
  epc    : Nat
  val    : W64
  tcause : W64
  origin : Nat
  notice : Bool
  deriving DecidableEq, Repr

/-- Where a context stands (R351, R354, R360, R468). -/
inductive CtxPhase where
  | live | stopping | saved | restoring | ended | destroying
  deriving DecidableEq, Repr

/-- The bytes, FE bits and poison of DRAM, local stores and code stores, by physical key. -/
structure Memory where
  bytes   : Tab Byte
  full    : Tab Bool
  poison  : Tab Bool
  badCode : List Nat             -- uncorrectable code words, by physical key
  deriving DecidableEq, Repr

/-- A saved context's threads, cores and rows (R356 to R359). -/
structure Saved where
  threads : List Thread
  cores   : Tab CoreRec
  rows    : Tab RowRec
  mem     : Memory             -- what its local stores held
  parts   : List Nat           -- bytes of the parts of its save area
  deriving DecidableEq, Repr

/-- A context on this package (R12, R316, R460, R468). -/
structure Ctx where
  asid     : Nat
  vf       : Nat
  phase    : CtxPhase
  mgmt     : Bool
  features : W64
  segs     : List (W64 × W64)
  save     : Nat
  cnt      : Nat
  tbl      : Nat
  pages    : Nat
  views    : Tab (W64 × W64)
  code     : List (Nat × Nat)     -- loaded ranges: first byte, length
  image    : Tab Byte             -- the bytes of the loaded ranges, by code address (R333)
  clusters : List Nat             -- clusters that hold the context's code
  level    : BitVec 2
  rows     : List Nat
  exch     : Nat
  lwm      : W64
  sample   : W64
  domLwm   : W64
  domSample : Option W64   -- what this package contributes to the next domain publication (R395)
  spans    : Bool
  groups   : Tab Group
  counters : Tab W64
  snapSeq  : W64
  faults   : List FaultRec
  hadFault : Bool
  stopTick : Nat
  stopBy   : Nat           -- tick by which a pre-emption has let everything stop (R355)
  saved    : Option Saved
  deriving DecidableEq, Repr

/-- Where a kernel stands (R330 to R337). -/
inductive KPhase where | waiting | dispatched | retired
  deriving DecidableEq, Repr

/-- A kernel (R29, R330, R356). -/
structure Kernel where
  lid     : Nat
  queue   : Nat
  asid    : Nat
  tag     : Nat
  entry   : Nat
  xsize   : Nat
  vsize   : Nat
  wheel   : Nat
  place   : Nat
  exch    : Nat
  count   : Nat
  args    : W64
  vtstart : W64
  cap     : Nat
  plan    : Nat
  planen  : Bool
  list    : List Nat
  detlvl  : BitVec 2
  phase   : KPhase
  cancel  : Bool
  placed  : List (Nat × Nat × Nat × Nat × W64)  -- core, slot, XBASE, VBASE, WHEEL in index order
  created : Nat
  dispatchTick : Nat
  deriving DecidableEq, Repr

/-- A command queue (R326, R328, R352). -/
structure QueueRec where
  base   : W64
  log    : Nat
  tail   : Nat
  head   : Nat
  en     : Bool
  loc    : Bool
  prio   : Nat
  ctx    : Nat
  state  : BitVec 2
  code   : BitVec 8
  errs   : W32
  cancel : W32
  errBase : W64
  recSeq : Nat
  packet : Option (List W64)   -- the parsed head packet, while it waits or runs
  slots  : Nat
  begun  : Bool                -- its effect has begun (R474)
  mark   : Nat                 -- kernels accepted before its parsing have lower keys (R331, R332)
  cond   : Nat                 -- next condition of a FENCE's pass (R331)
  holds  : Bool                -- every condition read in the pass has held
  passAt : Nat                 -- tick at which the pass began
  req    : Option (Nat × Nat)  -- peer and number of the packet's global access
  acc    : Option Nat          -- injection tick of the packet's access under way at a channel (R412)
  unpins : List (Nat × W64 × Bool) -- an UNPIN under way: marked pages, their leaves, and whether of 1 GiB (R325)
  deriving DecidableEq, Repr

/-- The queue processor (R327, R329, R469). -/
structure QProc where
  last     : Nat
  lastTick : Nat
  plans    : Tab (List W64)
  ucodeAt  : Nat               -- starts resume at this tick after a microcode load
  deriving DecidableEq, Repr

/-- A request that this package's NI has issued and that is unanswered (R435). -/
structure OutReq where
  req     : GReq
  store   : Option Nat   -- the store-buffer entry it performs
  here    : Bool         -- it has reached the NI, which has numbered it; before that its number is provisional (R399, R434)
  sent    : Bool
  otherDir : List Nat    -- the dimensions whose ring it goes round by the other direction (R435, R445)
  wasHeld : Bool         -- it has waited for a hold (R445)
  holdTo : Nat           -- tick until which the allowance or the credits hold it at injection; 0 for none (R426, R429, R452)
  gone   : Bool          -- abandoned at injection: its target entry is no longer valid (R452)
  route  : List ((Nat × Nat × Nat) × Nat) -- the links it takes, fixed at its injection (R425, R431)
  heldTo : Nat           -- tick until which an atomic unit could hold it back for the LWM (R189)
  queue  : Option Nat    -- the queue whose packet makes the access (R331)
  deriving DecidableEq, Repr

/-- A MODE 1 destination of a multicast: core, landing offset, mailbox counter, FILL (R273). -/
structure Direct where
  core : Nat
  off  : Nat
  mbox : Nat
  fill : Bool
  deriving DecidableEq, Repr

/-- What became of a message at its bound (R264): another package is asked whether it accepted the header; or the header is
abandoned. -/
inductive SendFate where | underWay | asked | gone
  deriving DecidableEq, Repr

/-- A message that a thread of this package sends (R263, R264, R274). It is dropped once its header is accepted and its
completion counter incremented, or once its bound passes. -/
structure SendRec where
  id       : Nat
  kernel   : Nat
  hdr      : Header       -- pois: offsets at which a poisoned source cell begins
  direct   : Option Direct
  group    : Nat         -- the first record of its multicast, or itself
  desc     : W64
  staged   : Bool        -- its source has been read or its header sent
  asked    : Bool        -- the reads of its source have set out (R263)
  got      : List (Nat × Byte) -- what has been read, by offset
  parts    : List (Nat × Nat) -- what is not back at the core yet: 512-byte unit, port
  accepted : Bool
  counted  : Bool        -- the completion counter is incremented
  name     : W64         -- TVAL when refused: the descriptor, or the rank or core of a multicast
  nobody   : Bool        -- a multicast without destination (R274)
  fate     : SendFate
  views    : Tab (W64 × W64) -- the region records in force at issue (R311)
  own      : Bool        -- its thread has not ended
  born     : Nat         -- tick of its issue (R412)
  deriving DecidableEq, Repr

/-- Why a header is refused (R388). -/
inductive RefuseCause where | queueFull | fewUnits | stageFull
  deriving DecidableEq, Repr

/-- What this package sends to other packages beside global requests and responses (R264, R380, R385, R440, R441). -/
inductive MsgOut where
  | header (h : Header)
  | accepted (sendId : Nat)
  | refused (sendId : Nat) (cause : RefuseCause)
  | abandon (asid srank drank : Nat) (n : SentNumber)
  | abandoned (sendId : Nat)
  | pull (p : FarPull)
  | payload (landing packet : Nat) (bytes : List Byte) (pois : List Nat)
  | arrival (asid group : Nat) (n : BarNotice)
  | completion (asid group : Nat) (maxVtime : W64)
  | sample (asid : Nat) (lwm : W64)
  | hold (port : Nat)
  | release (port : Nat) (down : Bool)
  | endNotice (asid cause origin : Nat) (val : W64)
  | rank (rank : Nat) (entry : W64)
  | context (m : SmallCtx)
  deriving DecidableEq, Repr

/-- A thread in transit: its small context, and what its source core keeps reserved until it lands (R321). -/
structure Transit where
  ctx   : SmallCtx
  peer  : Nat
  xbase : Nat
  wheel : W64
  acc   : Access      -- its access, should it come back
  deriving DecidableEq, Repr

/-- The network interface (R317, R431 to R437, R443). -/
structure NiRec where
  peer     : Nat
  table    : Tab W64               -- unlisted entries read STATE absent
  ranks    : Tab W64
  ring     : W64
  nextSeq  : Tab Nat
  out      : List OutReq
  high     : Tab Nat               -- per issuing peer: the next number to perform
  record   : List (Nat × Nat × Option GResult)
  early    : List (GReq × Bool)    -- requests waiting for their predecessor, and whether they came too late (R437)
  crossing : List (GReq × Nat × Bool) -- translated requests, in order: physical address, and whether its channel has it (R397, R434)
  atUnit   : List (GReq × Nat)     -- loads waiting at an atomic unit (R189), with their physical address
  holds    : List (Nat × Nat)      -- HOLD notices in force: peer, port
  sends    : List SendRec
  pairSeq  : Tab Nat               -- next number of a pair of ranks of a context
  msgs     : List (Nat × MsgOut)   -- sent to other peers
  responses : List (Nat × GResp)   -- responses sent to other peers
  respOut  : Tab Nat               -- per peer: the next number of a response to it (R434)
  respNext : Tab Nat               -- per peer: the next response to deliver
  respEarly : List GResp           -- responses that wait for their predecessor
  transits : List Transit          -- threads that migrate away (R321)
  cutOff   : List Nat              -- peers that count as cut off: nothing of theirs has come since (R437)
  heard    : Tab Nat               -- per peer: the tick at which something of its last came (R437)
  deriving DecidableEq, Repr

/-- A message bound to a receive, or a MODE 1 payload, still landing (R269, R274, R385). -/
structure Landing where
  id      : Nat
  hdr     : Header
  recv    : Recv
  status  : Bool          -- STAT0 and STAT1 are written, or there are none
  packets : List Nat      -- packets still to land
  held    : List (Nat × LandPart) -- packets of another package that came before the status (R269)
  homes   : List (Nat × Nat)      -- parts of packets that still land at a home: packet, home (R385)
  pull    : Bool          -- a rendezvous payload not yet read
  units   : Bool          -- its packets stand in eager units (R385)
  started : Bool          -- false while its context is saved (R387)
  born    : Nat           -- tick at which it was bound (R412)
  deriving DecidableEq, Repr

/-- A sender of the refusal list: its header, and what it waits for (R388). -/
structure Refused where
  peer   : Nat
  pair   : Nat     -- its context and ranks
  seq    : Nat
  queue  : Nat     -- headers of the unexpected queue
  units  : Nat     -- eager units
  stage  : Nat     -- headers of the reorder stage
  deriving DecidableEq, Repr

/-- What waits at a match unit: a header, a RECV or PROBE under its number, or a step of an eligibility batch (R381). -/
inductive UnitWork where
  | header (h : Header)
  | ask (id : Nat)
  | step (h : Header)
  deriving DecidableEq, Repr

/-- The receive engine (R379 to R388). -/
structure RxeRec where
  posted   : List Recv
  unexp    : List Header   -- in order of arrival
  staged   : List Header   -- reorder stage (R383)
  refusals : List Refused  -- in order of first refusal
  nextSeq  : Tab Nat       -- next number of a pair to bind or queue
  busy     : Tab Nat       -- per match unit: tick from which it is free (R381)
  waiting  : List (Nat × UnitWork) -- what waits at the match units, by unit, in order (R381)
  skipped  : List (Nat × Nat) -- abandoned numbers of a pair still ahead (R264)
  badGroups : List Nat     -- poisoned groups of the eager buffer, 16 to a unit (R386)
  landings : List Landing
  deriving DecidableEq, Repr

/-- A deterministic update accepted by an atomic unit (R322). -/
structure DetEntry where
  channel : Nat
  asid    : Nat
  cell    : Nat            -- physical key of its first byte
  op      : AmoOp
  b       : W64
  stamp   : W64
  name    : Nat            -- issuer's global thread name as a number (R180)
  prog    : BitVec 32
  order   : Nat            -- order of acceptance
  overflow : Bool
  deriving DecidableEq, Repr

/-- A waiting FE access in a wait or retry list (R181, R182). -/
structure FeEntry where
  id    : Nat
  place : Nat              -- core, or 4,608 + channel
  locs  : List ByteLoc     -- its eight bytes; a byte of the exchange area is resolved at each examination (R284, R305)
  issuer : Nat             -- the issuing core
  op    : CellOp
  limit : Nat
  count : Nat
  last  : Nat              -- tick of its last examination
  asid  : Nat
  local_ : Option Tid
  remote : Option GReq
  deriving DecidableEq, Repr

/-- Where a packet of the on-chip network stands (R397, R406, R407). -/
inductive NetPlace where
  | source                   -- not yet at a router or station
  | router (n : Nat)         -- in a buffer of a router: a cluster's, or 288 + g a gateway's (R406)
  | cycle (die buf : Nat)    -- on the preset cycle of its die, in the ebb
  | eject (n : Nat)          -- in the ejection buffer of its exit at a router (R407)
  | station (n : Nat)        -- at a crossbar station
  | light                    -- its beats have left the station
  deriving DecidableEq, Repr

/-- A packet of the on-chip network (R397 to R402, R405, R406). A home n below 288 is a cluster, 288 + m a DRAM channel, 416 + g an edge
gateway. -/
structure NetPkt where
  id      : Nat
  bounded : Bool
  kernel  : Option Nat       -- the DET2 kernel with a slot plan whose packet it is (R405)
  src     : Nat              -- home of its source
  dst     : Nat              -- home of its target
  flow    : Nat              -- its source and port, for the order of R402
  beats   : Nat              -- beats still to send on the home channel (R398)
  place   : NetPlace
  link    : Nat              -- the link by which it came to its router: a router, 1000 a port, 1001 the station (R406)
  path    : List Nat         -- routers still ahead
  ready   : Nat              -- tick from which it may go on
  limit   : Nat              -- bounded class: tick at which this leg ends at the latest (R343)
  stops   : Bool             -- bounded class: an ebb may still delay its access (R408)
  since   : Nat              -- tick at which it reached its station (R400)
  latest  : Nat              -- tick of its arrival at the latest; 0 none
  tail    : Nat              -- ticks left for the target port in the bounded class
  rank    : Nat
  event   : Instr            -- what happens at the target
  deriving DecidableEq, Repr

/-- The optical token of a home channel (R401). -/
structure TokenRec where
  pos  : Nat                 -- the station at which it is, or toward which it travels
  due  : Nat                 -- tick at which it is there
  held : Option Nat          -- the packet for which it is seized
  deriving DecidableEq, Repr

/-- The on-chip network: the numbers of packets per source and target port, and packets ahead of their predecessor (R402);
the packets under way, and the tokens of home channels for which general packets wait (R401). -/
structure Xbar where
  nextOut  : Tab Nat       -- key src * 8192 + port
  expected : Tab Nat
  early    : List (Nat × Nat × PortOp)   -- key, number, operation
  pkts     : List NetPkt
  tokens   : Tab TokenRec
  deriving DecidableEq, Repr

/-- A lane of an inbound link (R420, R421, R449). -/
inductive LaneState where | up | handback | train | ret | failed
  deriving DecidableEq, Repr

structure FibLane where
  state  : LaneState
  window : Nat
  total  : W64
  due    : Bool
  tries  : Nat
  thresh : Nat
  deriving DecidableEq, Repr

/-- A link pair (R413, R417 to R423, R447, R448). -/
structure Link where
  port     : Nat           -- 7: unattached
  spare    : Bool
  sevenSince : Option Nat  -- tick from which the link is in seven-lane mode (R421)
  failed   : Bool
  attaching : Bool
  spareFails : Nat
  lanes    : List FibLane
  retrains : W32
  flits    : W64
  replays  : W64
  sevenSlots : W64
  expect   : BitVec 12     -- next LSEQ expected
  lack     : BitVec 12     -- last LSEQ received in order
  sent     : BitVec 12     -- next LSEQ to send
  replay   : List Flit     -- flits not covered by LACK
  replayTicks : List Nat   -- ticks of the replays of the last 65,536 ticks (R419)
  deriving DecidableEq, Repr

/-- Port states (R444). -/
inductive PortState where | active | draining | dark | relock | down
  deriving DecidableEq, Repr

/-- A port (R414, R444, R447). -/
structure Port where
  state   : PortState
  npeer   : Nat
  nport   : Nat
  changes : W32
  held    : W64
  resent  : W64
  cutoff  : W64
  markers : Nat            -- neighbour's drain markers arrived
  acked   : Bool
  since   : Nat            -- tick of entry into the state
  deriving DecidableEq, Repr

/-- The fabric registers, ports and links (R442, R443). -/
structure FabricRec where
  dbound  : W32
  lthresh : W32
  darklim : W32
  fcb     : Nat
  laneclr : W64
  ports   : Tab Port
  links   : Tab Link
  aligned : Bool
  deriving DecidableEq, Repr

/-- Registers of a function (R459, R460). -/
structure VfRec where
  bound   : Option Nat      -- partition
  accept  : Tab W64
  att     : Tab Byte
  ctxstat : BitVec 2
  ctxcode : BitVec 8
  save    : W64
  cnt     : W64
  tbl     : W64
  pages   : W64
  segs    : Tab W64         -- words of SEG
  ctxcmd  : W64
  used    : Bool            -- a queue of its partition has had EN = 1 since APPLY (R461)
  deriving DecidableEq, Repr

/-- The host-side registers and outputs (R456 to R473). -/
structure HostRec where
  power    : Bool
  running  : Bool              -- RESET_N is released (R462)
  boot     : BitVec 3
  bootCode : BitVec 8
  bootImg  : W64
  fwDigest : List Byte
  fwSvn    : BitVec 16
  ucDigest : List Byte
  ucLoads  : W64
  partarg  : W64
  partcmd  : W64
  partstat : BitVec 2
  partcode : BitVec 16
  partWait : Option Instr        -- the partition command that waits for its start (R467)
  ucNext   : List Byte           -- digest of the verified microcode that waits for its start (R469)
  stage    : Tab W64
  parts    : Tab (List W64)      -- valid partition records
  pf       : VfRec
  vfs      : Tab VfRec
  tj       : BitVec 8
  tjMax    : BitVec 8
  warn     : Bool
  trip     : Bool
  energy   : W64               -- package energy in mJ, and the highest DRAM stack temperature, since reset (R473)
  energyPart : Nat             -- the part of a mJ beyond it, in units of 1 / (7 * 10^12) mJ
  drtMax   : BitVec 8
  mem      : Tab Byte            -- host memory that the link reaches
  msix     : List (Nat × Nat)    -- function (0 PF, 1 + n VF n), vector
  reads    : List (List Byte × Bool)  -- data returned to host reads, and whether marked poisoned (R457)
  deriving DecidableEq, Repr

/-- What runs next: timers, the events of this tick, the cores still to issue in it, the issuing thread. -/
structure Sched where
  timers : List (Nat × Nat × Instr)   -- due tick, rank in the tick, event
  agenda : List Instr
  turn   : List Nat
  cur    : Option Tid
  free   : Nat                        -- free values drawn
  ids    : Nat                        -- numbers given out
  deriving DecidableEq, Repr

/-- One ZN-7200 package. -/
structure State where
  ticks   : Nat
  swm     : Nat
  swmSample : Nat
  mem     : Memory
  threads : Tab Thread
  cores   : Tab CoreRec
  rows    : Tab RowRec
  ctxs    : Tab Ctx
  kernels : Tab Kernel
  queues  : Tab QueueRec
  pkg     : Tab W64                   -- the counters of R362 over the whole package
  qp      : QProc
  quarantine : List (Nat × Nat × Nat) -- a frame's first byte, its bytes, the tick of its UNPIN (R325)
  ni      : NiRec
  rxe     : RxeRec
  copies  : List CopyReq              -- those at a streamer in order of acceptance
  turns   : Tab Nat                   -- per channel: tick of its streamer's next turn (R389)
  det     : List DetEntry
  detLast : Tab Nat                   -- per channel: tick of its unit's latest application (R323)
  waits   : List FeEntry
  xbar    : Xbar
  ebb     : Bool
  fabric  : FabricRec
  host    : HostRec
  sched   : Sched
  deriving DecidableEq, Repr

/-! ### Values right after reset, and values at first hold -/

/-- A core when a context first holds it (R35, R46). -/
def CoreRec.fresh : CoreRec :=
  { maps := [], mail := [], members := [], bank := false, exch := 0, arrival := none, arrQueue := [],
    decl := { mode := 0, shift := 0, xb := 0 }, lag := 0, bgPtr := 0, ownPtr := 0 }

/-- A row when a context first holds it (R39, R230). -/
def RowRec.fresh : RowRec :=
  { cfg := 0, types := [], acc := [], badAcc := [], tiles := [], band := 0, queue := [], mappedOut := false, mapoutReq := false }

/-- An unused chunk map (R35). -/
def ChunkMap.zero : ChunkMap := { base := 0, landed := 0, poisoned := 0, lastTick := 0, lastLanded := 0, lastPoisoned := 0 }

/-- A group without an open phase (R203). -/
def Group.closed : Group :=
  { isOpen := false, set := [], arrivals := [], tide := false, openAt := (0, 0), sent := false, recalls := [], reopen := none, left := [], done := [],
    peers := [], remote := [] }

/-- A queue right after reset (R326). -/
def QueueRec.reset : QueueRec :=
  { base := 0, log := 4, tail := 0, head := 0, en := false, loc := false, prio := 0, ctx := 0, state := 0, code := 0,
    errs := 0, cancel := 0, errBase := 0, recSeq := 0, packet := none, slots := 0, begun := false, mark := 0,
    cond := 0, holds := false, passAt := 0, req := none, acc := none, unpins := [] }

/-- A lane right after reset (R421). -/
def FibLane.reset : FibLane := { state := .up, window := 0, total := 0, due := false, tries := 0, thresh := 64 }

/-- Link pair l right after reset (R414): 20 pairs to each port, pairs 120 to 127 spare. -/
def Link.reset (l : Nat) : Link :=
  { port := if l < 120 then l / 20 else 7, spare := 120 ≤ l, sevenSince := none, failed := false, attaching := false,
    spareFails := 0, lanes := List.replicate 8 FibLane.reset, retrains := 0, flits := 0, replays := 0, sevenSlots := 0,
    expect := 0, lack := 0, sent := 0, replay := [], replayTicks := [] }

/-- A port right after reset: DOWN until it locks (log 12). -/
def Port.reset : Port :=
  { state := .down, npeer := 0, nport := 0, changes := 0, held := 0, resent := 0, cutoff := 0, markers := 0,
    acked := false, since := 0 }

/-- A function's registers right after reset (R459, R460). -/
def VfRec.reset : VfRec :=
  { bound := none, accept := [], att := [], ctxstat := 0, ctxcode := 0, save := 0, cnt := 0, tbl := 0, pages := 0,
    segs := [], ctxcmd := 0, used := false }

/-- The machine right after RESET_N is released (R462, R463): TICKS 0, the boot ROM in state ROM, no thread. -/
def State.reset : State :=
  { ticks := 0, swm := 0, swmSample := 0,
    mem := { bytes := [], full := [], poison := [], badCode := [] },
    threads := [], cores := [], rows := [], ctxs := [], kernels := [], queues := [], pkg := [],
    qp := { last := 63, lastTick := 0, plans := [], ucodeAt := 0 },
    quarantine := [],
    ni := { peer := 0, table := [], ranks := [], ring := 0x88800, nextSeq := [], out := [], high := [], record := [],
            early := [], crossing := [], atUnit := [], holds := [], sends := [], pairSeq := [], msgs := [], responses := [], respOut := [], respNext := [], respEarly := [], transits := [], cutOff := [], heard := [] },
    rxe := { posted := [], unexp := [], staged := [], refusals := [], nextSeq := [], busy := [], waiting := [], skipped := [], badGroups := [], landings := [] },
    copies := [], turns := [], det := [], detLast := [], waits := [],
    xbar := { nextOut := [], expected := [], early := [], pkts := [], tokens := [] },
    ebb := false,
    fabric := { dbound := 1750000, lthresh := 64, darklim := 87500000, fcb := 0, laneclr := 0, ports := [], links := [],
                aligned := true },
    host := { power := true, running := true, boot := 0, bootCode := 0, bootImg := 0, fwDigest := [], fwSvn := 0, ucDigest := [],
              ucLoads := 0, partarg := 0, partcmd := 0, partstat := 0, partcode := 0, partWait := none, ucNext := [], stage := [], parts := [],
              pf := VfRec.reset, vfs := [], tj := 0, tjMax := 0, warn := false, trip := false, energy := 0, energyPart := 0, drtMax := 0, mem := [], msix := [],
              reads := [] },
    sched := { timers := [], agenda := [], turn := [], cur := none, free := 0, ids := 0 } }

end Sys2Proof.Machine
end

