-- ==== Sys2Proof/Machine/Ops.lean ====
section
/-! DEFINITION. The named operations over State: bit fields, lookups, free values, timers, registers and landings, taking
a trap and returning from one, ending a context (spec 01, 04, 08, 16). -/

namespace Sys2Proof.Machine

/-! ### Bit fields (R5) -/

/-- Bits [lo + len - 1 : lo] of a word, as a number. -/
def fld (w : W64) (lo len : Nat) : Nat := (w.toNat >>> lo) % 2 ^ len

/-- One bit of a word. -/
def bit (w : W64) (n : Nat) : Bool := w.getLsbD n

/-- A number placed at bit lo. -/
def at_ (n lo : Nat) : W64 := BitVec.ofNat 64 (n <<< lo)

/-- A truth value as bit lo. -/
def atB (b : Bool) (lo : Nat) : W64 := if b then at_ 1 lo else 0

/-- The bytes of a number, least significant first (R7). -/
def leBytes : Nat → Nat → List Byte
  | 0, _ => []
  | n + 1, v => BitVec.ofNat 8 v :: leBytes n (v / 256)

/-- The number that little-endian bytes hold (R7). -/
def leNat : List Byte → Nat
  | [] => 0
  | b :: r => b.toNat + 256 * leNat r

/-- The low n bytes of a word, sign-extended or zero-extended (R93, R174). -/
def extend (n : Nat) (signed : Bool) (w : W64) : W64 :=
  if n ≥ 8 then w
  else
    let v := w.toNat % 2 ^ (8 * n)
    if signed && 2 ^ (8 * n - 1) ≤ v then BitVec.ofNat 64 (v + (2 ^ 64 - 2 ^ (8 * n))) else BitVec.ofNat 64 v

/-! ### Names and lookups -/

/-- The key of a slot in the thread table: core × 64 + slot. -/
def tkey (t : Tid) : Nat := t.core * 64 + t.slot

/-- The global thread name as a number (R8, R180). -/
def globalName (peer : Nat) (t : Tid) : Nat := peer * 2 ^ 19 + tkey t

/-- A thread's THREAD register (R23). -/
def threadReg (peer : Nat) (t : Tid) : W64 := at_ (t.slot + t.core * 2 ^ 6 + peer * 2 ^ 19) 0

/-- The cluster of a core, counted over the package (R8, R397). -/
def clusterOf (core : Nat) : Nat := core / 16

def State.thread? (s : State) (t : Tid) : Option Thread := s.threads.find? (tkey t)
def State.putThread (s : State) (th : Thread) : State := { s with threads := s.threads.put (tkey th.id) th }
def State.modThread (s : State) (t : Tid) (f : Thread → Thread) : State :=
  match s.thread? t with
  | some th => s.putThread (f th)
  | none => s
def State.core (s : State) (c : Nat) : CoreRec := s.cores.getD c CoreRec.fresh
def State.putCore (s : State) (c : Nat) (r : CoreRec) : State := { s with cores := s.cores.setD c r CoreRec.fresh }
def State.modCore (s : State) (c : Nat) (f : CoreRec → CoreRec) : State := s.putCore c (f (s.core c))
def State.row (s : State) (r : Nat) : RowRec := s.rows.getD r RowRec.fresh
def State.putRow (s : State) (n : Nat) (r : RowRec) : State := { s with rows := s.rows.setD n r RowRec.fresh }
def State.modRow (s : State) (n : Nat) (f : RowRec → RowRec) : State := s.putRow n (f (s.row n))
def State.ctx? (s : State) (asid : Nat) : Option Ctx := s.ctxs.find? asid
def State.modCtx (s : State) (asid : Nat) (f : Ctx → Ctx) : State := { s with ctxs := s.ctxs.modify asid f }
def State.queue (s : State) (q : Nat) : QueueRec := s.queues.getD q QueueRec.reset
def State.putQueue (s : State) (q : Nat) (r : QueueRec) : State := { s with queues := s.queues.setD q r QueueRec.reset }
def State.modQueue (s : State) (q : Nat) (f : QueueRec → QueueRec) : State := s.putQueue q (f (s.queue q))

/-- The threads that satisfy a test, in ascending name. -/
def State.threadsWhere (s : State) (p : Thread → Bool) : List Thread := (s.threads.map (·.2)).filter p

/-- The threads of a context on the package. -/
def State.threadsOf (s : State) (asid : Nat) : List Thread := s.threadsWhere (·.asid == asid)

/-- Adds to a counter of a context's counter page, and of the package page (R362). -/
def State.count (s : State) (asid word n : Nat) : State :=
  { s.modCtx asid (fun c => { c with counters := c.counters.setD word (c.counters.getD word 0 + BitVec.ofNat 64 n) 0 }) with
    pkg := s.pkg.setD word (s.pkg.getD word 0 + BitVec.ofNat 64 n) 0 }

/-- Whether the context holds a core (R12): its whole row is held. -/
def Ctx.holdsCore (c : Ctx) (core : Nat) : Bool := c.rows.contains (core / 4)

/-- Whether the word at a code address lies in the code loaded for the context (R44, R307). -/
def Ctx.loaded (c : Ctx) (a : Nat) : Bool := a < 0x40000 && c.code.any (fun r => r.1 ≤ a && a + 4 ≤ r.1 + r.2)

/-! ### Free values, numbers and timers (log 4, 5, 6) -/

/-- Draws a free value below n (any value when n is 0). -/
def State.draw (s : State) (n : Nat) : Nat × State :=
  let v := Config.freeNat s.sched.free
  (if n = 0 then v else v % n, { s with sched := { s.sched with free := s.sched.free + 1 } })

/-- A number not given out before. -/
def State.fresh (s : State) : Nat × State := (s.sched.ids, { s with sched := { s.sched with ids := s.sched.ids + 1 } })

/-- Lists a timer in order of tick and of rank, behind those of the same tick and rank. -/
def insertTimer (due rank : Nat) (e : Instr) : List (Nat × Nat × Instr) → List (Nat × Nat × Instr)
  | [] => [(due, rank, e)]
  | (d, r, x) :: l =>
    if due < d || (due = d && rank < r) then (due, rank, e) :: (d, r, x) :: l else (d, r, x) :: insertTimer due rank e l

/-- Has an event happen at a tick: in the present tick's agenda when the tick has come, else as a timer. -/
def State.sched_ (s : State) (due rank : Nat) (e : Instr) : State :=
  if due ≤ s.ticks then { s with sched := { s.sched with agenda := s.sched.agenda ++ [e] } }
  else { s with sched := { s.sched with timers := insertTimer due rank e s.sched.timers } }

/-- Events that would fall later than a tick fall in it, before what is scheduled next. -/
def State.pullForward (s : State) (due : Nat) (p : Instr → Bool) : State :=
  let late := fun (e : Nat × Nat × Instr) => due < e.1 && p e.2.2
  { s with sched := { s.sched with timers :=
      (s.sched.timers.filter late).foldl (fun l e => insertTimer due e.2.1 e.2.2 l) (s.sched.timers.filter (fun e => !late e)) } }

/-- Events that come at once, before what else is left of this tick. -/
def State.nextNow (s : State) (es : List Instr) : State :=
  { s with sched := { s.sched with agenda := es ++ s.sched.agenda } }

/-- Has an event happen n ticks from now. -/
def State.after_ (s : State) (n rank : Nat) (e : Instr) : State := s.sched_ (s.ticks + n) rank e

/-- Has an event happen after a free delay of 1 to bound ticks, or of any length when bound is 0 (log 4). -/
def State.later (s : State) (bound rank : Nat) (e : Instr) : State :=
  (s.draw bound).2.after_ (1 + (s.draw bound).1) rank e

/-! Ranks: the order of the events of one tick (R36, R180, R219, R323, log 6). -/

def rankLand : Nat := 0
def rankFault : Nat := 1
def rankEngine : Nat := 2
def rankFe : Nat := 3
def rankPublish : Nat := 4
def rankHandlerOverrun : Nat := 5
def rankOverrun : Nat := 6
def rankClose : Nat := 7
def rankLost : Nat := 8
def rankArrive (name : Nat) : Nat := 16 + name
def rankLast : Nat := 2 ^ 40

/-! ### Registers of a thread (R14 to R18, R45) -/

/-- An x register: x0 reads zero (R16). -/
def Thread.getX (th : Thread) (r : XReg) : W64 := if r = 0 then 0 else th.x[r.toNat]
/-- Writes an x register: a write to x0 is discarded (R16). -/
def Thread.setX (th : Thread) (r : XReg) (v : W64) : Thread :=
  if r = 0 then th else { th with x := th.x.set r.toNat v }
def Thread.getV (th : Thread) (r : VReg) : V512 := th.v[r.toNat]
def Thread.setV (th : Thread) (r : VReg) (v : V512) : Thread := { th with v := th.v.set r.toNat v }
/-- A mask: m0 reads all ones (R17). -/
def Thread.getM (th : Thread) (r : MReg) : W64 := if r = 0 then BitVec.allOnes 64 else th.m[r.toNat]
/-- Writes a mask: a write to m0 is discarded (R17). -/
def Thread.setM (th : Thread) (r : MReg) (v : W64) : Thread :=
  if r = 0 then th else { th with m := th.m.set r.toNat v }
def Thread.getF (th : Thread) (r : MReg) : W64 := th.fm[r.toNat]
def Thread.setF (th : Thread) (r : MReg) (v : W64) : Thread := { th with fm := th.fm.set r.toNat v }

/-- BSTAT.DEPTH (R26, R28). -/
def Thread.depth (th : Thread) : Nat := th.regions.length

/-- The bits of v under a mask replace those of old. -/
def blend {n : Nat} (mask v old : BitVec n) : BitVec n := (v &&& mask) ||| (old &&& ~~~mask)

/-- Applies one landing (R22, R101, R154, R155). -/
def Thread.apply (th : Thread) : Dst → Thread
  | .x r v => th.setX r v
  | .v r mask v => th.setV r (blend mask v (th.getV r))
  | .m r mask v => th.setM r (blend mask v (th.getM r))
  | .fm r v => th.setF r v
  | .flags b => { th with csr := { th.csr with fcsr := th.csr.fcsr ||| b } }

/-- Lands every pending write that is due (R101), in order of issue. -/
def Thread.land (th : Thread) (now : Nat) : Thread :=
  let due := th.pend.filter (fun p => p.due ≤ now)
  due.foldl (fun t p => t.apply p.dst) { th with pend := th.pend.filter (fun p => now < p.due) }

/-- Lists a pending write in the order of landing: by tick, those of one tick in order of issue (R101). -/
def insertPend (p : PendWrite) : List PendWrite → List PendWrite
  | [] => [p]
  | q :: r => if p.due < q.due then p :: q :: r else q :: insertPend p r

/-- The pending writes in the order in which they land (R101). -/
def Thread.landing (th : Thread) : List PendWrite := th.pend.foldl (fun l p => insertPend p l) []

/-- Lands every pending write at once, in the order of landing (R101, R102). -/
def Thread.landAll (th : Thread) : Thread :=
  th.landing.foldl (fun t p => t.apply p.dst) { th with pend := [] }

/-- A fixed-latency write: it lands at the tick given (R101). -/
def State.writeAt (s : State) (t : Tid) (due : Nat) (d : Dst) : State :=
  (s.modThread t (fun th => { th with pend := th.pend ++ [{ due := due, dst := d }] })).sched_ due rankLand
    (.registerWriteLanding t)

/-- A register write of latency L of the instruction that issues now (R100, R101). -/
def State.writeReg (s : State) (t : Tid) (lat : Nat) (d : Dst) : State := s.writeAt t (s.ticks + lat) d

/-- FCSR bits set by an event of tick n: every read sees them from the next tick on (R22). -/
def State.setFlags (s : State) (t : Tid) (tick : Nat) (bits : W64) : State :=
  if bits = 0 then s else s.writeAt t (tick + 1) (.flags bits)

/-- FCSR.POISON, set by an event of this tick (R22, R34). -/
def State.setPoison (s : State) (t : Tid) : State := s.setFlags t s.ticks (at_ 1 15)

/-- Lands every pending register write at once, in the order of landing, before the result of a parked instruction is written
(R100 to R102). -/
def Thread.landRegs (th : Thread) : Thread :=
  th.landing.foldl (fun t p => match p.dst with | .flags _ => t | d => t.apply d)
    { th with pend := th.pend.filter (fun p => match p.dst with | .flags _ => true | _ => false) }

/-! ### Parking and waking (R13, R102, R103) -/

/-- The landing tick of the last pending register write. -/
def Thread.lastLanding (th : Thread) : Nat :=
  th.pend.foldl (fun n p => match p.dst with | .flags _ => n | _ => Nat.max n p.due) 0

/-- Parks: open stall pairs close (R103), and the thread issues again no earlier than its pending landings (R102). -/
def Thread.park (th : Thread) (w : Wait) : Thread :=
  { th with run := .parked w, pairs := [], gapUntil := Nat.max th.gapUntil th.lastLanding }

def State.park (s : State) (t : Tid) (w : Wait) : State := s.modThread t (·.park w)

/-- What a parked thread waits for. -/
def State.waiting? (s : State) (t : Tid) : Option Wait :=
  match s.thread? t with
  | some th => match th.run with | .parked w => some w | _ => none
  | none => none

/-! ### Traps (R222, R346 to R349) -/

/-- Trap-cause codes (R346). -/
def Cause.code : Cause → Nat
  | .illegal => 0x01 | .feature => 0x02 | .window => 0x03 | .stallchk => 0x04 | .align => 0x05 | .protect => 0x06
  | .noxlate => 0x07 | .fetimeout => 0x08 | .overrun => 0x09 | .nesting => 0x0A | .nopeer => 0x0B | .storelost => 0x0C
  | .scaleseq => 0x0D | .gangmismatch => 0x0E | .fpexc => 0x0F | .intdiv => 0x10 | .refused => 0x11 | .trapinsn => 0x12
  | .handleroverrun => 0x13 | .cancelled => 0x14 | .poison => 0x15

/-- The causes that end the context whatever TVEC holds (R346). -/
def Cause.fatal : Cause → Bool
  | .protect | .noxlate | .handleroverrun => true
  | _ => false

/-- Notes a fatal fault of a context (R351, R353): the context ends at the next tick. -/
def State.fatalCtx (s : State) (asid : Nat) (f : FaultRec) : State :=
  match s.ctx? asid with
  | none => s
  | some c =>
    if c.phase = .ended then s
    else
      let s1 := s.modCtx asid (fun c => { c with faults := c.faults ++ [f] })
      if c.faults.isEmpty then s1.after_ 1 rankFault (.contextFatalEnd asid) else s1

/-- A fatal fault of a thread: it issues nothing more, its trap registers stay (R25, R351). -/
def State.fatalThread (s : State) (th : Thread) (c : Cause) (v : W64) (epc : Nat) : State :=
  (s.modThread th.id (fun t => { t with run := .stopped })).fatalCtx th.asid
    { tick := s.ticks, cause := c, tid := some th.id, kernel := th.kernel, epc := epc, val := v,
      tcause := th.csr.tcause, origin := s.ni.peer, notice := false }

/-- The trap registers and the handler's address (R222), the entry time (R348). -/
def Thread.enter (th : Thread) (now : Nat) (c : Cause) (v : W64) (epc : Nat) : Thread :=
  { th with
    csr := { th.csr with tepc := at_ (epc / 4 % 2 ^ 16) 2, tcause := at_ c.code 0 ||| atB (0 < th.depth) 8, tval := v },
    pc := fld th.csr.tvec 2 16 * 4,
    run := .ready, pairs := [], gapUntil := now + 8, after := none, ovr := false,
    entry := some { tepc := th.csr.tepc, tcause := th.csr.tcause, tval := th.csr.tval, pc := epc, gap := 0, born := now, lost := none,
                    hit := false } }

/-- A trap of a thread outside a gang: entered when TVEC.EN = 1 and the cause is not fatal, else fatal (R25). -/
def State.trapAlone (s : State) (t : Tid) (c : Cause) (v : W64) (epc : Nat) : State :=
  match s.thread? t with
  | none => s
  | some th =>
    if c.fatal || !bit th.csr.tvec 0 then s.fatalThread th c v epc
    else s.putThread (th.enter s.ticks c v epc)

/-- The members of the gang a thread is in, itself included (R209). -/
def State.gangOf (s : State) (th : Thread) : List Tid :=
  match th.gang with
  | .none => []
  | .leader _ ms => ms
  | .follower l _ _ =>
    match s.thread? l with
    | some lt => match lt.gang with | .leader _ ms => ms | _ => [th.id]
    | none => [th.id]

/-- The address of the first forwarded word a member has not issued (R212); a word that was withdrawn from the leader alone the
others have issued (R354). -/
def firstUnissued (s : State) (th : Thread) : Nat :=
  match th.gang with
  | .follower _ _ (f :: _) => f.pc
  | .follower l _ [] => match s.thread? l with | some lt => if lt.again then lt.pc + 4 else lt.pc | none => th.pc
  | _ => th.pc

/-- Where a fault of a thread is named when no instruction of its own raises it: the instruction in which it waits, else the
word that it would issue next (R219, R346, R352; log 58). -/
def State.faultPc (s : State) (th : Thread) : Nat :=
  match th.run with
  | .parked _ | .followWait _ => th.insn
  | _ => firstUnissued s th

/-- A trap taken at a boundary: the gap that an earlier instruction owes still binds the handler's first issue (R77). -/
def State.keepGap (s : State) (t : Tid) (gap : Nat) : State :=
  s.modThread t (fun th => { th with gapUntil := Nat.max th.gapUntil gap, entry := th.entry.map (fun e => { e with gap := gap }) })

/-- A member leaves the dissolved gang and takes GANGMISMATCH before its next word, once a parked word of its own has
completed (R212). -/
def State.mismatch (s : State) (t : Tid) (pc : Nat) (core : Nat) : State :=
  match s.thread? t with
  | none => s
  | some th =>
    let s1 := s.putThread { th with gang := .none, pc := pc }
    match th.run with
    | .parked _ => s1.modThread t (fun th => { th with after := some (.gangmismatch, at_ core 0) })
    | _ => (s1.trapAlone t .gangmismatch (at_ core 0) pc).keepGap t th.gapUntil

/-- Dissolves the gang of a trapping member (R212): every lag is removed, every other member takes GANGMISMATCH at the first
word that it has not issued. -/
def State.dissolve (s : State) (th : Thread) : State :=
  let ms := s.gangOf th
  let others := (ms.filter (· != th.id)).filterMap (fun m => (s.thread? m).map (fun mt => (m, firstUnissued s mt)))
  let s1 := ms.foldl (fun a m => a.modCore m.core (fun c => { c with lag := 0 })) s
  let s2 := s1.modThread th.id (fun t => { t with gang := .none, again := false })
  others.foldl (fun a o => a.mismatch o.1 o.2 th.id.core) s2

/-- TAKING A TRAP (R222, R346 to R349): the one operation through which every trap of a thread goes. -/
def State.trap (s : State) (t : Tid) (c : Cause) (v : W64) (epc : Nat) : State :=
  match s.thread? t with
  | none => s
  | some th =>
    let s1 := match th.gang with
      | .none => s
      | _ => if c.fatal || !bit th.csr.tvec 0 then s else s.dissolve th
    s1.trapAlone t c v epc

/-- A trap that ends the wait of a parked instruction (R348): its address is TEPC. After an overrun that overtook the
wait, the overrun stands and the instruction issues again when the handler returns to it (R349, log 17). -/
def State.trapParked (s : State) (t : Tid) (c : Cause) (v : W64) : State :=
  match s.thread? t with
  | none => s
  | some th =>
    if th.ovr && !c.fatal then
      s.putThread { th with run := .ready, ovr := false, csr := { th.csr with tepc := at_ (th.insn / 4 % 2 ^ 16) 2 } }
    else s.trap t c v th.insn

/-- Lists a lost store in the order of the stores, and of the lanes of one store (R176, R349). -/
def insertLost (x : Nat × Nat × W64) : List (Nat × Nat × W64) → List (Nat × Nat × W64)
  | [] => [x]
  | y :: r => if x.1 < y.1 || (x.1 = y.1 && x.2.1 < y.2.1) then x :: y :: r else y :: insertLost x r

/-- The trap entry in progress is abandoned: the registers it wrote come back (R349). A lost store that it reported is still to be
reported, in its place (R176). -/
def Thread.abandon (th : Thread) : Thread :=
  match th.entry with
  | none => th
  | some e =>
    { th with csr := { th.csr with tepc := e.tepc, tcause := e.tcause, tval := e.tval }, pc := e.pc, gapUntil := e.gap, entry := none,
              lost := match e.lost with | some x => insertLost x th.lost | none => th.lost }

/-- A lost store is detected: it is to be reported. One detected between a trap's decision and its handler's first issue is taken 8
ticks after the decision (R349). -/
def State.noteLost (s : State) (t : Tid) (x : Nat × Nat × W64) : State :=
  match s.thread? t with
  | none => s
  | some th =>
    let s1 := s.putThread { th with lost := insertLost x th.lost, entry := th.entry.map (fun e => { e with hit := true }) }
    match th.entry with
    | some e => s1.sched_ (Nat.max s.ticks (e.born + 8)) rankLost (.storeLost t)
    | none => s1

/-- A parked instruction completes: the thread is ready, or takes the trap that waited for it (R212). -/
def State.wake (s : State) (t : Tid) : State :=
  match s.thread? t with
  | none => s
  | some th =>
    let s1 := s.putThread { th with run := .ready, ovr := false, after := none }
    match th.after with
    | none => s1
    | some (c, v) => (s1.trap t c v th.pc).keepGap t th.gapUntil

/-- A parked instruction completes with a result in an x register, behind every write that was pending (R100, R102). -/
def State.wakeX (s : State) (t : Tid) (d : XReg) (v : W64) : State := (s.modThread t (fun th => th.landRegs.setX d v)).wake t

/-- A parked instruction is withdrawn without effect: it is the next to issue again (R219, R354); a follower's word, given
here, is forwarded to it again, a leader's is not. -/
def Thread.withdraw (th : Thread) (word : W32) : Thread :=
  match th.gang with
  | .follower l lag ws =>
    { th with run := .ready, gang := .follower l lag ({ due := 0, pc := th.insn, word := word } :: ws) }
  | .leader _ _ => { th with run := .ready, pc := th.insn, again := true }
  | .none => { th with run := .ready, pc := th.insn }

/-! ### Control transfer (R44, R113, R224) -/

/-- The checks of a transfer's target, in order (R113): the trap or fatal cause, or none. -/
def checkTarget (c : Ctx) (tgt : W64) : Option Cause :=
  if fld tgt 0 2 ≠ 0 then some .align
  else if c.loaded tgt.toNat then none
  else some .protect

/-- The code address that TRET transfers to (R224). -/
def Thread.returnTarget (th : Thread) : W64 := th.csr.tepc &&& 0x3FFFC

/-- RETURNING FROM A TRAP (R224): control passes to TEPC.ADDR × 4 and nothing else changes. -/
def Thread.returnFromTrap (th : Thread) : Thread := { th with pc := th.returnTarget.toNat }

end Sys2Proof.Machine
end

