-- ==== Sys2Proof/Machine/Operands.lean ====
section
/-! DEFINITION. Operand forms (R79, R83 to R86), immediates (R80, R81), the checks made before an instruction issues
(R96, R97, R15, R103) and the frame of issuing one (R77). -/

namespace Sys2Proof.Machine

/-! ### Operand forms -/

/-- The register fields of an instruction in the order of its fields, those it reads, those it writes, and the latency of
its writes (0 when it parks or writes nothing). -/
structure Opnds where
  fields : List RegRef
  reads  : List RegRef
  writes : List RegRef
  lat    : Nat
  deriving DecidableEq, Repr

/-- op xd, xa, xb. -/
def Opnds.dab (d a b : XReg) (lat : Nat) : Opnds := ⟨[.x d, .x a, .x b], [.x a, .x b], [.x d], lat⟩
/-- op xd, xa, xb with xd read. -/
def Opnds.ddab (d a b : XReg) (lat : Nat) : Opnds := ⟨[.x d, .x a, .x b], [.x d, .x a, .x b], [.x d], lat⟩
/-- op xd, xa. -/
def Opnds.da (d a : XReg) (lat : Nat) : Opnds := ⟨[.x d, .x a], [.x a], [.x d], lat⟩
/-- op xd. -/
def Opnds.d (d : XReg) (lat : Nat) : Opnds := ⟨[.x d], [], [.x d], lat⟩
/-- op xd with xd read. -/
def Opnds.dd (d : XReg) (lat : Nat) : Opnds := ⟨[.x d], [.x d], [.x d], lat⟩
/-- Registers read only. -/
def Opnds.rd (rs : List XReg) : Opnds := ⟨rs.map .x, rs.map .x, [], 0⟩
/-- No register. -/
def Opnds.none : Opnds := ⟨[], [], [], 0⟩
/-- op vd, va, vb, mk. -/
def Opnds.vdab (d a b : VReg) (m : MReg) (lat : Nat) : Opnds := ⟨[.v d, .v a, .v b, .m m], [.v a, .v b, .m m], [.v d], lat⟩
/-- op vd, va, vb, mk with vd read. -/
def Opnds.vddab (d a b : VReg) (m : MReg) (lat : Nat) : Opnds :=
  ⟨[.v d, .v a, .v b, .m m], [.v d, .v a, .v b, .m m], [.v d], lat⟩
/-- op vd, va, mk. -/
def Opnds.vda (d a : VReg) (m : MReg) (lat : Nat) : Opnds := ⟨[.v d, .v a, .m m], [.v a, .m m], [.v d], lat⟩

/-- The registers of a vector load or store: one, or an even and odd pair (R157). -/
def pairRegs (v : VReg) (pair : Bool) : List VReg := if pair then [v, v + 1] else [v]

/-! ### Immediates and offsets (R80, R81) -/

/-- xa + sext(OFF7) × scale. -/
def addrOff7 (a : W64) (off : BitVec 7) (scale : Nat) : W64 := a + off.signExtend 64 * BitVec.ofNat 64 scale
/-- xa + sext(OFF6) × 64. -/
def addrOff6 (a : W64) (off : BitVec 6) : W64 := a + off.signExtend 64 * 64
/-- The target of B and DBNZ: the branch's address + sext(OFF14) × 4. -/
def branchTarget (pc : Nat) (off : BitVec 14) : W64 := BitVec.ofNat 64 pc + off.signExtend 64 * 4
/-- The target of J: the jump's address + sext(OFF17) × 4. -/
def jumpTarget (pc : Nat) (off : BitVec 17) : W64 := BitVec.ofNat 64 pc + off.signExtend 64 * 4

/-! ### Checks before issue -/

/-- Whether a register field lies outside the thread's window, and TVAL if so (R15). -/
def windowFault (th : Thread) : RegRef → Option W64
  | .x n => if th.xsize ≤ n.toNat then some (at_ n.toNat 0) else none
  | .v n => if th.vsize ≤ n.toNat then some (at_ (n.toNat + 128) 0) else none
  | .m _ => none
  | .fm _ => none

/-- The number and kind bits of a register in TVAL of STALLCHK (R103). -/
def stallName : RegRef → Nat
  | .x n => n.toNat
  | .v n => n.toNat + 2 ^ 7
  | .m n => n.toNat + 2 ^ 8
  | .fm n => n.toNat + 2 ^ 9

/-- The largest shortfall of the open pairs of a register (R103). -/
def shortfall (th : Thread) (r : RegRef) : Nat := th.pairs.foldl (fun n p => if p.1 = r then Nat.max n p.2 else n) 0

/-- The stall-code check (R103): TVAL of the first register, reads before writes, with an open pair. -/
def stallFault (th : Thread) (o : Opnds) : Option W64 :=
  if th.csr.chk then
    ((o.reads ++ o.writes).find? (fun r => 0 < shortfall th r)).map
      (fun r => at_ (stallName r + (shortfall th r) * 2 ^ 32) 0)
  else none

/-- The gap of a stall code (R77). -/
def gap (st : Stall) : Nat := if st = 0 then 1 else if st = 1 then 4 else if st = 2 then 8 else 16

/-- A write to x0 or to m0 opens no pair (R103). -/
def opensPair : RegRef → Bool
  | .x n => n ≠ 0
  | .m n => n ≠ 0
  | .v _ => true
  | .fm _ => true

/-- The open stall pairs after an instruction with gap g and writes of latency L (R103). -/
def pairsAfter (ps : List (RegRef × Nat)) (g : Nat) (o : Opnds) : List (RegRef × Nat) :=
  (ps.filterMap (fun p => if g < p.2 then some (p.1, p.2 - g) else none)) ++
    (if g < o.lat then (o.writes.filter opensPair).map (fun r => (r, o.lat - g)) else [])

/-- The checks of R97, steps 2 and 3, then the stall-code check: the first trap that applies. -/
def issueFault (c : Ctx) (th : Thread) (feat : Option Nat) (o : Opnds) : Option (Cause × W64) :=
  match feat.filter (fun f => !bit c.features f) with
  | some f => some (.feature, at_ f 0)
  | none =>
    match o.fields.findSome? (windowFault th) with
    | some v => some (.window, v)
    | none => (stallFault th o).map (fun v => (.stallchk, v))

/-! ### Issuing -/

/-- What an instruction's own description gives: a state, a precise trap, or a fatal fault. -/
inductive Effect where
  | ok (s : State)
  | trap (c : Cause) (v : W64)

/-- The thread right after it issues an instruction with stall code ST (R77): the next instruction is at pc + 4. -/
def Thread.issued (th : Thread) (now : Nat) (st : Stall) (o : Opnds) : Thread :=
  { th with
    insn := th.pc, pc := th.pc + 4, gapUntil := now + gap st, issuedAt := now, entry := none, again := false,
    landed := th.landed && th.pc == th.insn,
    pairs := pairsAfter th.pairs (gap st) o }

/-- Issues one instruction of the current thread: the checks before issue, then its own effect on the state in which the
thread has issued. A trap is precise: it is taken from the state before the instruction (R97, R346). -/
def issue (s : State) (st : Stall) (feat : Option Nat) (o : Opnds) (body : State → Thread → Effect) :
    Host.Outcome State Fault Refusal :=
  match s.sched.cur with
  | none => .fault .noIssuingThread
  | some t =>
    match s.thread? t with
    | none => .fault .noIssuingThread
    | some th =>
      match s.ctx? th.asid with
      | none => .fault .noIssuingThread
      | some c =>
        .next (match issueFault c th feat o with
          | some (cause, v) => s.trap t cause v th.pc
          | none =>
            match body (s.putThread (th.issued s.ticks st o)) (th.issued s.ticks st o) with
            | .ok s' => s'
            | .trap cause v => s.trap t cause v th.pc)

/-- An instruction whose only effect is writes of a fixed latency, computed from the registers at issue (R101). -/
def fixedWrites (s : State) (st : Stall) (feat : Option Nat) (o : Opnds) (f : Thread → List Dst) :
    Host.Outcome State Fault Refusal :=
  issue s st feat o (fun s1 th => .ok ((f th).foldl (fun a d => a.writeReg th.id o.lat d) s1))

/-- The context of a thread, or an empty one. -/
def Ctx.blank : Ctx :=
  { asid := 0, vf := 0, phase := .ended, mgmt := false, features := 0, segs := [], save := 0, cnt := 0, tbl := 0,
    pages := 0, views := [], code := [], image := [], clusters := [], level := 0, rows := [], exch := 0, lwm := 0, sample := 0,
    domLwm := 0, domSample := none, spans := false, groups := [], counters := [], snapSeq := 0, faults := [], hadFault := false,
    stopTick := 0, stopBy := 0, saved := none }

/-- A context that turns out to span packages: its threads read the domain publication from now on, which is never below what they
have read (R27, R32). -/
def Ctx.spanning (c : Ctx) : Ctx :=
  if c.spans then c else { c with spans := true, domLwm := if c.domLwm.toNat ≤ c.lwm.toNat then c.lwm else c.domLwm }

def State.ctxOf (s : State) (th : Thread) : Ctx := (s.ctx? th.asid).getD Ctx.blank

/-- A follower of a gang executes the leader's stream (R115, R209). -/
def Thread.isFollower (th : Thread) : Bool := match th.gang with | .follower _ _ _ => true | _ => false

/-- The end of a control transfer (R113, R115): a follower takes the leader's direction; the leader, or a thread alone,
checks the target. A fatal target ends the context before any register is written. -/
def transfer (s : State) (th : Thread) (tgt : W64) (k : State → State) : Effect :=
  if th.isFollower then .ok (k s)
  else
    match checkTarget (s.ctxOf th) tgt with
    | some c => .trap c tgt
    | none => .ok (k (s.modThread th.id (fun t => { t with pc := tgt.toNat })))

end Sys2Proof.Machine
end

