-- ==== Sys2Proof/Machine/Flags.lean ====
section
/-! DEFINITION. Floating-point formats, rounding, flags, NaN rules and conversions of the IEEE formats (spec 05, 06). -/

namespace Sys2Proof.Machine

/-! ### Formats and values (R117, R118) -/

/-- The parameters of a binary format: exponent bits, mantissa bits, bias. -/
structure FFmt where
  eb   : Nat
  mb   : Nat
  bias : Int
  deriving DecidableEq, Repr

def FFmt.half : FFmt := ⟨5, 10, 15⟩
def FFmt.bf16 : FFmt := ⟨8, 7, 127⟩
def FFmt.single : FFmt := ⟨8, 23, 127⟩
def FFmt.double : FFmt := ⟨11, 52, 1023⟩

/-- Bits of a code. -/
def FFmt.width (f : FFmt) : Nat := 1 + f.eb + f.mb
/-- Exponent of the smallest normal. -/
def FFmt.emin (f : FFmt) : Int := 1 - f.bias
/-- Exponent of the largest finite value. -/
def FFmt.emax (f : FFmt) : Int := ((2 ^ f.eb : Nat) : Int) - 2 - f.bias
/-- Exponent of the last place of subnormals. -/
def FFmt.qmin (f : FFmt) : Int := f.emin - f.mb
/-- The sign bit. -/
def FFmt.signBit (f : FFmt) : Nat := 2 ^ (f.eb + f.mb)
/-- +infinity. -/
def FFmt.infCode (f : FFmt) : Nat := (2 ^ f.eb - 1) * 2 ^ f.mb
/-- The canonical quiet NaN (R128). -/
def FFmt.qnan (f : FFmt) : Nat := f.infCode + 2 ^ (f.mb - 1)
/-- The largest finite code. -/
def FFmt.maxCode (f : FFmt) : Nat := f.infCode - 1

/-- A decoded value (R118): a NaN by its code, an infinity, or a finite (−1)^neg × m × 2^e. -/
inductive FVal where
  | nan (code : Nat)
  | inf (neg : Bool)
  | fin (neg : Bool) (m : Nat) (e : Int)
  deriving DecidableEq, Repr

/-- Whether a code is negative. -/
def FFmt.neg (f : FFmt) (c : Nat) : Bool := c / f.signBit % 2 = 1

/-- Decodes a code (R118). -/
def FFmt.unpack (f : FFmt) (c : Nat) : FVal :=
  let ex := c / 2 ^ f.mb % 2 ^ f.eb
  let m := c % 2 ^ f.mb
  if ex = 2 ^ f.eb - 1 then (if m = 0 then .inf (f.neg c) else .nan c)
  else if ex = 0 then .fin (f.neg c) m f.qmin
  else .fin (f.neg c) (m + 2 ^ f.mb) (ex - f.bias - f.mb)

/-- Whether a code is subnormal. -/
def FFmt.isSub (f : FFmt) (c : Nat) : Bool := c / 2 ^ f.mb % 2 ^ f.eb = 0 && c % 2 ^ f.mb ≠ 0
/-- Whether a code is a NaN. -/
def FFmt.isNan (f : FFmt) (c : Nat) : Bool := c / 2 ^ f.mb % 2 ^ f.eb = 2 ^ f.eb - 1 && c % 2 ^ f.mb ≠ 0
/-- Whether a code is a signalling NaN. -/
def FFmt.isSnan (f : FFmt) (c : Nat) : Bool := f.isNan c && c / 2 ^ (f.mb - 1) % 2 = 0
/-- A NaN with its quiet bit set. -/
def FFmt.quiet (f : FFmt) (c : Nat) : Nat := if c / 2 ^ (f.mb - 1) % 2 = 0 then c + 2 ^ (f.mb - 1) else c

/-- A zero of a sign. -/
def FFmt.zero (f : FFmt) (neg : Bool) : Nat := if neg then f.signBit else 0
/-- An infinity of a sign. -/
def FFmt.inf (f : FFmt) (neg : Bool) : Nat := f.zero neg + f.infCode

/-! ### Environment and flags (R21, R120, R122, R126) -/

/-- Rounding modes (R120). -/
inductive Rm where | rne | rtz | rdn | rup | rmm
  deriving DecidableEq, Repr

/-- The mode of an RM field; a reserved code is never stored (R20). -/
def Rm.ofCode (c : Nat) : Rm :=
  if c = 1 then .rtz else if c = 2 then .rdn else if c = 3 then .rup else if c = 4 then .rmm else .rne

/-- The environment of an operation (R127): mode, flush outputs, treat inputs as zero. -/
structure FEnv where
  rm  : Rm
  ftz : Bool
  daz : Bool
  deriving DecidableEq, Repr

/-- The environment of FCSR at issue (R127). -/
def Thread.fenv (th : Thread) : FEnv :=
  { rm := Rm.ofCode (fld th.csr.fcsr 0 3), ftz := bit th.csr.fcsr 13, daz := bit th.csr.fcsr 14 }

/-- Raised flags, in the order of FCSR[7:3]. -/
abbrev Flags := BitVec 5
def flNX : Flags := 1
def flUF : Flags := 2
def flOF : Flags := 4
def flDZ : Flags := 8
def flNV : Flags := 16

/-- A result: its code and the flags raised with it. -/
structure FRes where
  code : Nat
  fl   : Flags
  deriving DecidableEq, Repr

def flagIf (b : Bool) (f : Flags) : Flags := if b then f else 0

/-- The bits of FCSR that flags set (R122). -/
def flagBits (f : Flags) : W64 := f.zeroExtend 64 <<< 3

/-! ### Rounding (R120, R121, R123, R126) -/

/-- The number of bits of a natural number. -/
def bitLen (n : Nat) : Nat := if n = 0 then 0 else Nat.log2 n + 1

/-- Rounds m × 2^e, or a value strictly between it and (m + 1) × 2^e when st holds, to a whole number of 2^q: the number
and whether it differs from the exact value. -/
def roundAt (rm : Rm) (neg : Bool) (m : Nat) (e : Int) (st : Bool) (q : Int) : Nat × Bool :=
  if q ≤ e then (m * 2 ^ (e - q).toNat, st)
  else
    let k := (q - e).toNat
    let n := m / 2 ^ k
    let r := m % 2 ^ k
    let half := 2 ^ (k - 1)
    let ix := r ≠ 0 || st
    let up := match rm with
      | .rne => half < r || (r = half && (st || n % 2 = 1))
      | .rtz => false
      | .rdn => ix && neg
      | .rup => ix && !neg
      | .rmm => half ≤ r
    (if up then n + 1 else n, ix)

/-- The code of n × 2^q, with q not below the last place of subnormals and n below 2^(mb + 1) or equal to it. -/
def FFmt.pack (f : FFmt) (neg : Bool) (n : Nat) (q : Int) : Nat := f.zero neg + (q - f.qmin).toNat * 2 ^ f.mb + n

/-- The result of an overflow (R121). -/
def FFmt.overflow (f : FFmt) (rm : Rm) (neg : Bool) : Nat :=
  match rm with
  | .rne | .rmm => f.inf neg
  | .rtz => f.zero neg + f.maxCode
  | .rdn => if neg then f.inf true else f.maxCode
  | .rup => if neg then f.zero true + f.maxCode else f.inf false

/-- Rounds an exact nonzero magnitude to the format once, with the flags of R122 and R123 and the flush of R126. -/
def FFmt.round (f : FFmt) (v : FEnv) (neg : Bool) (m : Nat) (e : Int) (st : Bool) : FRes :=
  if m = 0 && !st then ⟨f.zero neg, 0⟩
  else
    let q1 := e + bitLen m - (f.mb + 1)
    let n1 := (roundAt v.rm neg m e st q1).1
    let top := q1 + bitLen n1 - 1
    if f.emax < top then ⟨f.overflow v.rm neg, flOF ||| flNX⟩
    else
      let tiny := top < f.emin
      if tiny && v.ftz then ⟨f.zero neg, flUF ||| flNX⟩
      else
        let q := if q1 < f.qmin then f.qmin else q1
        let r := roundAt v.rm neg m e st q
        ⟨f.pack neg r.1 q, flagIf r.2 flNX ||| flagIf (tiny && r.2) flUF⟩

/-- Rounds an exact integer multiple of 2^e; an exact zero takes the sign given. -/
def FFmt.roundInt (f : FFmt) (v : FEnv) (x : Int) (e : Int) (zneg : Bool) : FRes :=
  if x = 0 then ⟨f.zero zneg, 0⟩ else f.round v (x < 0) x.natAbs e false

/-! ### Operands (R126, R129) -/

/-- An operand after R126: a subnormal is zero of its sign when inputs are treated as zero. -/
def FFmt.input (f : FFmt) (v : FEnv) (c : Nat) : Nat :=
  if v.daz && f.isSub c then f.zero (f.neg c) else c

/-- The NaN rule of R129: the first NaN operand, quieted, with NV for any signalling one. -/
def FFmt.nanRule (f : FFmt) (cs : List Nat) : Option FRes :=
  (cs.find? f.isNan).map (fun c => ⟨f.quiet c, flagIf (cs.any f.isSnan) flNV⟩)

/-- An invalid operation (R128). -/
def FFmt.invalid (f : FFmt) : FRes := ⟨f.qnan, flNV⟩

/-- The sign of an exact zero sum of operands of opposite sign (R120). -/
def zeroSumNeg (rm : Rm) : Bool := rm = .rdn

/-- A finite value as a signed integer multiple of 2^q, with q not above its exponent. -/
def scaled (neg : Bool) (m : Nat) (e q : Int) : Int :=
  let x : Int := (m * 2 ^ (e - q).toNat : Nat)
  if neg then -x else x

/-- The exact sum of two finite values, rounded (R120). -/
def FFmt.addFin (f : FFmt) (v : FEnv) (na : Bool) (ma : Nat) (ea : Int) (nb : Bool) (mb : Nat) (eb : Int) : FRes :=
  let q := min ea eb
  f.roundInt v (scaled na ma ea q + scaled nb mb eb q) q (if na = nb then na else zeroSumNeg v.rm)

/-- Addition (R146). -/
def FFmt.add (f : FFmt) (v : FEnv) (a0 b0 : Nat) : FRes :=
  let a := f.input v a0
  let b := f.input v b0
  match f.nanRule [a, b] with
  | some r => r
  | none =>
    match f.unpack a, f.unpack b with
    | .inf na, .inf nb => if na = nb then ⟨f.inf na, 0⟩ else f.invalid
    | .inf na, _ => ⟨f.inf na, 0⟩
    | _, .inf nb => ⟨f.inf nb, 0⟩
    | .fin na ma ea, .fin nb mb eb => f.addFin v na ma ea nb mb eb
    | _, _ => f.invalid

/-- A code with its sign bit inverted. -/
def FFmt.flip (f : FFmt) (c : Nat) : Nat := if f.neg c then c - f.signBit else c + f.signBit

/-- Subtraction (R146): NaN operands keep their signs (R129). -/
def FFmt.sub (f : FFmt) (v : FEnv) (a b : Nat) : FRes :=
  match f.nanRule [a, b] with
  | some r => r
  | none => f.add v a (f.flip b)

/-- Multiplication (R146). -/
def FFmt.mul (f : FFmt) (v : FEnv) (a0 b0 : Nat) : FRes :=
  let a := f.input v a0
  let b := f.input v b0
  match f.nanRule [a, b] with
  | some r => r
  | none =>
    let neg := f.neg a != f.neg b
    match f.unpack a, f.unpack b with
    | .inf _, .fin _ m _ => if m = 0 then f.invalid else ⟨f.inf neg, 0⟩
    | .fin _ m _, .inf _ => if m = 0 then f.invalid else ⟨f.inf neg, 0⟩
    | .inf _, .inf _ => ⟨f.inf neg, 0⟩
    | .fin _ ma ea, .fin _ mb eb => f.round v neg (ma * mb) (ea + eb) false
    | _, _ => f.invalid

/-- Division (R122, R146): a quotient of at least mb + 3 bits and whether a remainder is left. -/
def FFmt.div (f : FFmt) (v : FEnv) (a0 b0 : Nat) : FRes :=
  let a := f.input v a0
  let b := f.input v b0
  match f.nanRule [a, b] with
  | some r => r
  | none =>
    let neg := f.neg a != f.neg b
    match f.unpack a, f.unpack b with
    | .inf _, .inf _ => f.invalid
    | .inf _, _ => ⟨f.inf neg, 0⟩
    | _, .inf _ => ⟨f.zero neg, 0⟩
    | .fin _ ma ea, .fin _ mb eb =>
      if mb = 0 then (if ma = 0 then f.invalid else ⟨f.inf neg, flDZ⟩)
      else if ma = 0 then ⟨f.zero neg, 0⟩
      else
        let k := f.mb + 3 + bitLen mb
        let n := ma * 2 ^ k
        f.round v neg (n / mb) (ea - eb - k) (n % mb ≠ 0)
    | _, _ => f.invalid

/-- The integer square root, found bit by bit from bit n − 1 down. -/
def isqrt (x : Nat) : Nat → Nat → Nat
  | 0, r => r
  | n + 1, r => if (r + 2 ^ n) * (r + 2 ^ n) ≤ x then isqrt x n (r + 2 ^ n) else isqrt x n r

/-- Square root (R122, R146). -/
def FFmt.sqrt (f : FFmt) (v : FEnv) (a0 : Nat) : FRes :=
  let a := f.input v a0
  match f.nanRule [a] with
  | some r => r
  | none =>
    match f.unpack a with
    | .inf neg => if neg then f.invalid else ⟨f.inf false, 0⟩
    | .fin neg m e =>
      if m = 0 then ⟨f.zero neg, 0⟩
      else if neg then f.invalid
      else
        let k := 2 * (f.mb + 3) + (if (e - 2 * (f.mb + 3)) % 2 = 0 then 0 else 1)
        let n := m * 2 ^ k
        let r := isqrt n (f.mb + 3 + f.mb + 2) 0
        f.round v false r ((e - k) / 2) (r * r ≠ n)
    | .nan _ => f.invalid

/-- Fused multiply-add a × b + c (R129, R146). -/
def FFmt.fma (f : FFmt) (v : FEnv) (a0 b0 c0 : Nat) : FRes :=
  let a := f.input v a0
  let b := f.input v b0
  let c := f.input v c0
  let zi := match f.unpack a, f.unpack b with
    | .inf _, .fin _ m _ => m = 0
    | .fin _ m _, .inf _ => m = 0
    | _, _ => false
  let neg := f.neg a != f.neg b
  match f.nanRule [a, b, c] with
  | some r => ⟨r.code, r.fl ||| flagIf zi flNV⟩
  | none =>
    if zi then f.invalid
    else
      match f.unpack a, f.unpack b, f.unpack c with
      | .fin _ ma ea, .fin _ mb eb, .fin nc mc ec => f.addFin v neg (ma * mb) (ea + eb) nc mc ec
      | .fin _ _ _, .fin _ _ _, .inf nc => ⟨f.inf nc, 0⟩
      | _, _, .inf nc => if nc = neg then ⟨f.inf nc, 0⟩ else f.invalid
      | _, _, _ => ⟨f.inf neg, 0⟩

/-- A key that orders codes other than NaNs, with −0 below +0 (R147). -/
def FFmt.orderKey (f : FFmt) (c : Nat) : Int :=
  if f.neg c then -((c - f.signBit : Nat) : Int) - 1 else (c : Int)

/-- minimumNumber, or maximumNumber (R147). -/
def FFmt.minMax (f : FFmt) (v : FEnv) (max : Bool) (a0 b0 : Nat) : FRes :=
  let a := f.input v a0
  let b := f.input v b0
  let nv := flagIf (f.isSnan a || f.isSnan b) flNV
  if f.isNan a then (if f.isNan b then ⟨f.quiet a, nv⟩ else ⟨b, nv⟩)
  else if f.isNan b then ⟨a, nv⟩
  else if max then ⟨if f.orderKey a < f.orderKey b then b else a, 0⟩
  else ⟨if f.orderKey b < f.orderKey a then b else a, 0⟩

/-- A key that orders codes other than NaNs, with −0 equal to +0 (R149). -/
def FFmt.compareKey (f : FFmt) (c : Nat) : Int :=
  if f.neg c then -((c - f.signBit : Nat) : Int) else (c : Int)

/-- The relation of two operands after R126: less, equal, greater, or none when unordered. -/
def FFmt.compare (f : FFmt) (v : FEnv) (a0 b0 : Nat) : Option Ordering :=
  let a := f.input v a0
  let b := f.input v b0
  if f.isNan a || f.isNan b then none
  else if f.compareKey a < f.compareKey b then some .lt
  else if f.compareKey a = f.compareKey b then some .eq
  else some .gt

/-- The class of a code, as a bit number (R150). -/
def FFmt.classBit (f : FFmt) (c : Nat) : Nat :=
  if f.isNan c then (if f.isSnan c then 8 else 9)
  else
    match f.unpack c with
    | .inf neg => if neg then 0 else 7
    | .fin neg m _ => if m = 0 then (if neg then 3 else 4)
        else if f.isSub c then (if neg then 2 else 5) else (if neg then 1 else 6)
    | .nan _ => 9

/-- Rounds to an integral value in the same format (R151). -/
def FFmt.roundIntegral (f : FFmt) (v : FEnv) (a0 : Nat) : FRes :=
  let a := f.input v a0
  match f.nanRule [a] with
  | some r => r
  | none =>
    match f.unpack a with
    | .fin neg m e =>
      if 0 ≤ e then ⟨a, 0⟩
      else
        let r := roundAt v.rm neg m e false 0
        if r.1 = 0 then ⟨f.zero neg, flagIf r.2 flNX⟩
        else ⟨(f.round { v with ftz := false } neg r.1 0 false).code, flagIf r.2 flNX⟩
    | _ => ⟨a, 0⟩

/-- Conversion between float formats (R130, R131). -/
def FFmt.convert (src dst : FFmt) (v : FEnv) (a0 : Nat) : FRes :=
  let a := src.input v a0
  match src.unpack a with
  | .nan c =>
    let m := src.quiet c % 2 ^ src.mb
    let m' := if src.mb ≤ dst.mb then m * 2 ^ (dst.mb - src.mb) else m / 2 ^ (src.mb - dst.mb)
    ⟨dst.inf (src.neg c) + m', flagIf (src.isSnan c) flNV⟩
  | .inf neg => ⟨dst.inf neg, 0⟩
  | .fin neg m e => dst.round v neg m e false

/-! ### Integer conversions (R132, R133) -/

/-- Bits and sign of an integer format of FCVT. -/
def cvtInt : CvtFmt → Option (Nat × Bool)
  | .w => some (32, true) | .wu => some (32, false) | .d => some (64, true) | .du => some (64, false)
  | .f16 | .bf16 | .f32 | .f64 => none

/-- The parameters of a float format of FCVT. -/
def cvtFloat : CvtFmt → Option FFmt
  | .f16 => some .half | .bf16 => some .bf16 | .f32 => some .single | .f64 => some .double
  | .w | .wu | .d | .du => none

/-- The least and the greatest value of an integer format. -/
def intMin (n : Nat) (sg : Bool) : Int := if sg then -(2 ^ (n - 1) : Nat) else 0
def intMax (n : Nat) (sg : Bool) : Int := if sg then (2 ^ (n - 1) : Nat) - 1 else (2 ^ n : Nat) - 1

/-- The value of the low n bits of a word. -/
def intValue (n : Nat) (sg : Bool) (w : W64) : Int :=
  let v := w.toNat % 2 ^ n
  if sg && 2 ^ (n - 1) ≤ v then (v : Int) - (2 ^ n : Nat) else v

/-- An integer result as a register holds it: sign-extended or zero-extended (R132). -/
def intReg (n : Nat) (sg : Bool) (x : Int) : W64 :=
  BitVec.ofInt 64 (intValue n sg (BitVec.ofInt 64 x))

/-- The invalid result (R132). -/
def intInvalid (n : Nat) (sg : Bool) : Int := if sg then intMin n true else intMax n false

/-- A float to an integer (R132). -/
def floatToInt (f : FFmt) (v : FEnv) (n : Nat) (sg sat : Bool) (a0 : Nat) : W64 × Flags :=
  let a := f.input v a0
  match f.unpack a with
  | .nan c => if sat then (0, flagIf (f.isSnan c) flNV) else (intReg n sg (intInvalid n sg), flNV)
  | .inf neg =>
    if sat then (intReg n sg (if neg then intMin n sg else intMax n sg), 0) else (intReg n sg (intInvalid n sg), flNV)
  | .fin neg m e =>
    let r := roundAt v.rm neg m e false 0
    let x : Int := if neg then -(r.1 : Int) else r.1
    if intMin n sg ≤ x && x ≤ intMax n sg then (intReg n sg x, flagIf r.2 flNX)
    else if sat then (intReg n sg (if neg then intMin n sg else intMax n sg), flNX)
    else (intReg n sg (intInvalid n sg), flNV)

/-- FCVT (R153): the register written and the flags. -/
def fcvtValue (v : FEnv) (src dst : CvtFmt) (sat : Bool) (a : W64) : W64 × Flags :=
  match cvtFloat src, cvtInt src, cvtFloat dst, cvtInt dst with
  | some f, _, some g, _ =>
    let r := f.convert g v (a.toNat % 2 ^ f.width)
    (BitVec.ofNat 64 r.code, r.fl)
  | some f, _, _, some (n, sg) => floatToInt f v n sg sat (a.toNat % 2 ^ f.width)
  | _, some (n, sg), some g, _ =>
    let r := g.roundInt v (intValue n sg a) 0 false
    (BitVec.ofNat 64 r.code, r.fl)
  | _, some (n, sg), _, some (n', sg') =>
    let x := intValue n sg a
    if sat then (intReg n' sg' (if x < intMin n' sg' then intMin n' sg' else if intMax n' sg' < x then intMax n' sg' else x), 0)
    else (intReg n' sg' x, 0)
  | _, _, _, _ => (a, 0)

/-! ### Precisions -/

def precFmt : FPrec → FFmt
  | .h => .half | .bf => .bf16 | .s => .single | .d => .double

def vfFmt : VFType → FFmt
  | .f16 => .half | .bf16 => .bf16 | .f32 => .single | .f64 => .double

/-! ### Vectors as lanes (R119, R154) -/

/-- Lane i of w bits. -/
def laneOf (w : Nat) (v : V512) (i : Nat) : Nat := v.toNat / 2 ^ (w * i) % 2 ^ w

/-- The number that holds lanes f 0 to f (n − 1) of w bits. -/
def packLanes (w : Nat) (f : Nat → Nat) : Nat → Nat
  | 0 => 0
  | n + 1 => packLanes w f n + (f n % 2 ^ w) * 2 ^ (w * n)

/-- A vector of n lanes of w bits. -/
def ofLanes (w n : Nat) (f : Nat → Nat) : V512 := BitVec.ofNat 512 (packLanes w f n)

/-- The register bits of the lanes that a mask enables (R154). -/
def laneMask (w n : Nat) (m : W64) : V512 := ofLanes w n (fun i => if bit m i then 2 ^ w - 1 else 0)

/-- The OR of the flags of n lanes. -/
def orFlags (f : Nat → Flags) : Nat → Flags
  | 0 => 0
  | n + 1 => orFlags f n ||| f n

/-! ### Ending an instruction that may take FPEXC (R124, R156) -/

/-- The enabled exceptions of FCSR[12:8]. -/
def Thread.enables (th : Thread) : Flags := BitVec.ofNat 5 (fld th.csr.fcsr 8 5)

/-- TVAL of FPEXC (R124). -/
def fpexcVal (fl : Flags) (vec : Bool) : W64 := at_ (fl.toNat + if vec then 32 else 0) 0

/-- The end of an FP instruction of latency L: a raised flag that is enabled traps, after every raised flag is ORed into
FCSR, with nothing written; otherwise the writes and the flags land at t + L, and the thread parks for L when any enable
is set (R124). -/
def fpFinish (s : State) (th : Thread) (lat : Nat) (vec : Bool) (ds : List Dst) (fl : Flags) : Effect :=
  if fl &&& th.enables ≠ 0 then
    .ok ((s.modThread th.id (·.apply (.flags (flagBits fl)))).trap th.id .fpexc (fpexcVal fl vec) th.insn)
  else
    let s1 := (ds.foldl (fun a d => a.writeReg th.id lat d) s).setFlags th.id (s.ticks + lat) (flagBits fl)
    if th.enables ≠ 0 then .ok ((s1.park th.id .fpPark).after_ lat rankLand (.fpexcParkEnd th.id)) else .ok s1

end Sys2Proof.Machine
end

