-- ==== Sys2Proof/Machine/Memory.lean ====
section
/-! DEFINITION. Memory: physical bytes, cells, FE bits and poison, exchange banks, segments, views, the checks of an
address, and what one access does at its place (spec 01, 07, 12, 14). -/

namespace Sys2Proof.Machine

/-! ### Physical bytes (R302, R305, R307, R308) -/

/-- The key of a local-store byte. -/
def localKey (core off : Nat) : Nat := 2 ^ 39 + core * 2 ^ 18 + off
/-- The key of a code-store byte. -/
def codeKey (cluster off : Nat) : Nat := 2 ^ 40 + cluster * 2 ^ 18 + off

/-- The channel of a DRAM byte (R308). -/
def channelOf (a : Nat) : Nat := (a / 2 ^ 12 % 128) ^^^ (a / 2 ^ 25 % 128)

/-- The place that keeps FE waits of a cell: a core, or 4,608 + a channel (R182). -/
def placeOf (key : Nat) : Nat := if key < 2 ^ 39 then Config.cores + channelOf key else (key - 2 ^ 39) / 2 ^ 18

def Memory.byte (m : Memory) (k : Nat) : Byte := m.bytes.getD k 0
def Memory.isFull (m : Memory) (cell : Nat) : Bool := m.full.getD cell false
def Memory.poisoned (m : Memory) (cell : Nat) : Bool := m.poison.getD cell false
def Memory.setByte (m : Memory) (k : Nat) (b : Byte) : Memory := { m with bytes := m.bytes.setD k b 0 }

/-- Clears the poison of a cell: its bytes are zero (R34). -/
def Memory.unpoison (m : Memory) (cell : Nat) : Memory :=
  if m.poisoned cell then
    (List.range 8).foldl (fun m i => m.setByte (cell * 8 + i) 0) { m with poison := m.poison.setD cell false false }
  else m

/-- Writes one byte; a poisoned cell loses its poison first (R34). -/
def Memory.write (m : Memory) (k : Nat) (b : Byte) : Memory := (m.unpoison (k / 8)).setByte k b

/-- Reads n bytes, a poisoned cell's as zero (R34). -/
def Memory.read (m : Memory) (k : Nat) : Byte := if m.poisoned (k / 8) then 0 else m.byte k
def Memory.readN (m : Memory) (k n : Nat) : List Byte := (List.range n).map (fun i => m.read (k + i))
def Memory.writeN (m : Memory) (k : Nat) : List Byte → Memory
  | [] => m
  | b :: r => (m.write k b).writeN (k + 1) r
/-- A 64-bit word of DRAM (or of any cell). -/
def Memory.word (m : Memory) (k : Nat) : W64 := BitVec.ofNat 64 (leNat (m.readN k 8))
def Memory.setWord (m : Memory) (k : Nat) (w : W64) : Memory := m.writeN k (leBytes 8 w.toNat)
/-- Poisons a cell and empties it in the same step (R34). -/
def Memory.strike (m : Memory) (cell : Nat) : Memory :=
  { m with poison := m.poison.setD cell true false, full := m.full.setD cell false false }

/-- The word at a code address of a core's cluster. -/
def State.codeWord (s : State) (core pc : Nat) : W32 :=
  BitVec.ofNat 32 (leNat (s.mem.readN (codeKey (clusterOf core) pc) 4))

/-- The offset in a core's physical local store that an access reaches: an exchange byte lies in the active bank for the
owner and in the shadow bank for every other core (R38, R305). -/
def CoreRec.physOff (c : CoreRec) (own : Bool) (off : Nat) : Nat :=
  if 0 < c.exch && 0x30000 - c.exch ≤ off then (if own != c.bank then off else off - c.exch) else off

/-- A byte as it is reached now: a physical byte, or eight bits of DRAM bytes. -/
inductive PLoc where
  | byte (k : Nat)
  | bits (l : List (Nat × Nat))
  deriving DecidableEq, Repr

/-- The byte that a location reaches for an access of a core, at this tick (R284). -/
def State.ploc (s : State) (issuer : Nat) : ByteLoc → PLoc
  | .dram a => .byte a
  | .store core off => .byte (localKey core ((s.core core).physOff (core == issuer) off))
  | .plane l => .bits l
  | .global _ va => .byte va

def PLoc.cells : PLoc → List Nat
  | .byte k => [k / 8]
  | .bits l => l.map (fun b => b.1 / 8)

/-- The cell of an access: that of its first byte. -/
def cellOfLocs (ps : List PLoc) : Nat :=
  match ps with
  | .byte k :: _ => k / 8
  | .bits (b :: _) :: _ => b.1 / 8
  | _ => 0

/-- The first physical byte of an access. -/
def keyOfLocs (ps : List PLoc) : Nat :=
  match ps with
  | .byte k :: _ => k
  | .bits (b :: _) :: _ => b.1
  | _ => 0

/-- The cell that a waiting access names now: a cell of the exchange area is the one that the bank in force gives (R284,
R305). -/
def State.feCell (s : State) (w : FeEntry) : Nat := cellOfLocs (w.locs.map (s.ploc w.issuer))

/-- Whether some waiting access names the cell. -/
def State.waited (s : State) (cell : Nat) : Bool := s.waits.any (fun w => s.feCell w == cell)

/-- A change of a cell's FE bit re-examines its waiting accesses in the next tick (R181, R304). -/
def State.feChanged (s : State) (cell : Nat) : State :=
  if s.waited cell && !s.sched.timers.any (fun t => t.1 == s.ticks + 1 && t.2.2 == .feChangeReexamine cell) then
    s.after_ 1 rankFe (.feChangeReexamine cell)
  else s

/-- The event in which the NI takes the command of a port (R443): word PCMD. -/
def pcmdEvent (port : Nat) (w : W64) : Instr :=
  if fld w 17 47 ≠ 0 then .pcmdReserved port
  else if fld w 0 3 = 1 then .drain port
  else if fld w 0 3 = 2 then .relock port
  else .pcmdReserved port

/-- A command cell of the fabric control block that becomes full is found by the NI after a free time (R443). -/
def State.commandFilled (s : State) (cell : Nat) : State :=
  let off := cell * 8 - s.fabric.fcb
  if s.fabric.fcb = 0 || cell * 8 < s.fabric.fcb then s
  else if off < 384 && off % 64 = 0 then s.later 0 rankLand (pcmdEvent (off / 64) (s.mem.word (cell * 8)))
  else if off = 0x808 then s.later 0 rankLand .ptcmd
  else s

/-- Writes a cell's FE bit (R33). -/
def State.setFull (s : State) (cell : Nat) (b : Bool) : State :=
  if s.mem.isFull cell = b then s
  else
    let s1 := ({ s with mem := { s.mem with full := s.mem.full.setD cell b false } }).feChanged cell
    if b then s1.commandFilled cell else s1

/-- Poisons a cell (R34): the change of its FE bit re-examines its waits. -/
def State.strike (s : State) (cell : Nat) : State :=
  (if s.mem.isFull cell then s.feChanged cell else s) |> fun s1 => { s1 with mem := s1.mem.strike cell }

def Memory.readP (m : Memory) : PLoc → Byte
  | .byte k => m.read k
  | .bits l => BitVec.ofNat 8 (leBits (l.map (fun b => (m.read b.1).getLsbD b.2)))
where
  leBits : List Bool → Nat
    | [] => 0
    | b :: r => (if b then 1 else 0) + 2 * leBits r

/-- Sets one bit of a byte (a bit-plane write changes only the named bits, R314). -/
def setBit (b : Byte) (i : Nat) (v : Bool) : Byte := if v then b ||| ((1 : Byte) <<< i) else b &&& ~~~((1 : Byte) <<< i)

def Memory.writeP (m : Memory) (p : PLoc) (v : Byte) : Memory :=
  match p with
  | .byte k => m.write k v
  | .bits l => (l.zip (List.range 8)).foldl (fun m e => m.write e.1.1 (setBit (m.read e.1.1) e.1.2 (v.getLsbD e.2))) m

def Memory.readPs (m : Memory) (ps : List PLoc) : W64 := BitVec.ofNat 64 (leNat (ps.map m.readP))
def Memory.writePs (m : Memory) (ps : List PLoc) (v : W64) : Memory :=
  (ps.zip (leBytes ps.length v.toNat)).foldl (fun m e => m.writeP e.1 e.2) m
def Memory.anyPoison (m : Memory) (ps : List PLoc) : Bool := ps.any (fun p => p.cells.any m.poisoned)

/-! ### What one access does at its place (R174 to R187) -/

/-- The function of an AMO at DET0 (R184, R185). -/
def amoFn (op : AmoOp) (o b : W64) : W64 :=
  match op with
  | .add => o + b
  | .and => o &&& b
  | .or => o ||| b
  | .xor => o ^^^ b
  | .min => if o.toInt ≤ b.toInt then o else b
  | .max => if b.toInt ≤ o.toInt then o else b
  | .swap => b
  | .fadd =>
    let r := FFmt.single.add { rm := .rne, ftz := false, daz := false } (o.toNat % 2 ^ 32) (b.toNat % 2 ^ 32)
    BitVec.ofNat 64 (o.toNat / 2 ^ 32 * 2 ^ 32 + r.code)

/-- Bytes of an access. -/
def opSize : CellOp → Nat
  | .load n | .store n _ | .cas n _ _ => n
  | _ => 8

/-- What performing an access gives: the value returned and whether a poisoned cell was met, or that its condition fails. -/
inductive PRes where
  | value (v : W64) (pois : Bool)
  | fails
  deriving DecidableEq, Repr

def State.setMem (s : State) (m : Memory) : State := { s with mem := m }

/-- Performs one access indivisibly at its bytes (R174 to R187). Where a poisoned cell meets PTE, a load or atomic changes
nothing (R184). A waiting access treats a poisoned cell as empty (R178): one that a host's write has set full holds zero, and is taken as
full (log 125). -/
def State.performAt (s : State) (ps : List PLoc) (op : CellOp) (pte : Bool) : PRes × State :=
  let cell := cellOfLocs ps
  let pois := s.mem.anyPoison ps
  match op with
  | .load _ => (.value (s.mem.readPs ps) pois, s)
  | .store _ v => (.value 0 false, s.setMem (s.mem.writePs ps v))
  | .waitFull => if s.mem.isFull cell then (.value (s.mem.readPs ps) false, s) else (.fails, s)
  | .take => if s.mem.isFull cell then (.value (s.mem.readPs ps) false, s.setFull cell false) else (.fails, s)
  | .peek => (.value (if s.mem.isFull cell then 1 else 0) false, s)
  | .fill v => (.value 0 false, (s.setMem (s.mem.writePs ps v)).setFull cell true)
  | .putEmpty v =>
    if s.mem.isFull cell then (.fails, s) else (.value 0 false, (s.setMem (s.mem.writePs ps v)).setFull cell true)
  | .clear => (.value 0 false, s.setFull cell false)
  | .amo f b =>
    if pois && pte then (.value 0 true, s)
    else
      let o := s.mem.readPs ps
      (.value o pois, s.setMem (s.mem.writePs ps (amoFn f o b)))
  | .withdraw _ => (.value 0 false, s)
  | .cas n e v =>
    if pois && pte then (.value 0 true, s)
    else
      let o := s.mem.readPs ps
      (.value o pois,
        if o.toNat = e.toNat % 2 ^ (8 * n) then s.setMem (s.mem.writePs ps v) else s)

/-! ### Segments (R316) -/

/-- Whether one valid segment covers bytes a to a + n − 1 and grants the rights. -/
def Ctx.segAllows (c : Ctx) (a n : Nat) (rd wr : Bool) : Bool :=
  c.segs.any (fun g => bit g.1 0 && (!rd || bit g.1 1) && (!wr || bit g.1 2) && fld g.1 12 27 ≤ a / 4096 &&
    (a + n - 1) / 4096 ≤ fld g.2 12 27)

/-! ### Views (R310 to R314) -/

/-- A region record. -/
structure ViewRec where
  e    : Nat
  w    : Nat
  tr   : Nat
  tc   : Nat
  base : Nat
  rows : Nat
  cols : Nat
  deriving DecidableEq, Repr

/-- The fields of a record's two words. -/
def viewRec (r : W64 × W64) : ViewRec :=
  { e := 2 ^ fld r.1 1 2, w := fld r.1 3 5, tr := 2 ^ fld r.1 8 3, tc := 2 ^ fld r.1 11 3, base := fld r.1 14 27,
    rows := fld r.2 0 24 + 1, cols := fld r.2 24 24 + 1 }

/-- Bricks per brick row (R312). -/
def ViewRec.bricks (v : ViewRec) : Nat := (v.cols * v.e + 63) / 64

/-- Bytes of a region's bricks (R312). -/
def ViewRec.bytes (v : ViewRec) : Nat := (v.rows + 63) / 64 * v.bricks * 4096

/-- The physical address of a byte of element (r, c) (R312). -/
def ViewRec.elem (v : ViewRec) (r c b : Nat) : Nat :=
  v.base * 4096 + (r / 64 * v.bricks + c * v.e / 64) * 4096 + r % 64 * 64 + c * v.e % 64 + b

/-- The element of a byte offset in views 00 to 10 (R313). -/
def ViewRec.elemOf (v : ViewRec) (view o : Nat) : Nat × Nat :=
  let k := o / v.e
  if view = 0 then (k / v.cols, k % v.cols)
  else if view = 1 then (k % v.rows, k / v.rows)
  else
    let tile := k / (v.tr * v.tc)
    let i := k % (v.tr * v.tc)
    let across := v.cols / v.tc
    (tile / across * v.tr + i / v.tc, tile % across * v.tc + i % v.tc)

/-- A bit of the bit-plane view: bit t of word W (R314). -/
def ViewRec.planeBit (v : ViewRec) (word t : Nat) : Nat × Nat :=
  let j := word % v.tc
  let k := word / v.tc % (v.rows / 64)
  let gp := word / v.tc / (v.rows / 64)
  let p := gp % v.w
  let g := gp / v.w
  (v.elem (64 * k + t) (g * v.tc + j) (p / 8), p % 8)

/-- Bytes of a view (R313, R314). -/
def ViewRec.extent (v : ViewRec) (view : Nat) : Nat :=
  if view = 3 then (if v.w = 0 then 0 else v.cols * v.w * v.rows / 8) else v.rows * v.cols * v.e

/-- The location of a byte of a view. -/
def ViewRec.loc (v : ViewRec) (view o : Nat) : ByteLoc :=
  if view = 3 then .plane ((List.range 8).map (fun i => v.planeBit (o / 8) (o % 8 * 8 + i)))
  else .dram (v.elem (v.elemOf view o).1 (v.elemOf view o).2 (o % v.e))

/-- The region record that a view address names, when it is registered. -/
def Ctx.view? (c : Ctx) (a : W64) : Option ViewRec :=
  match c.views.find? (fld a 49 12) with
  | some r => if bit r.1 0 then some (viewRec r) else none
  | none => none

/-! ### Addresses (R40 to R43) -/

/-- The core that a local-store address names; 0x1FFF is the issuing core. -/
def localCore (issuer : Nat) (a : W64) : Nat := if fld a 48 13 = 0x1FFF then issuer else fld a 48 13

/-- Whether an address violates R40 for an access of n bytes (R41). -/
def protectFault (c : Ctx) (issuer : Nat) (a : W64) (n : Nat) (rd wr : Bool) : Bool :=
  if bit a 63 then false
  else
    let cls := fld a 61 2
    if cls = 0 then fld a 39 22 ≠ 0 || !c.segAllows (fld a 0 39) n rd wr
    else if cls = 1 then
      fld a 18 30 ≠ 0 || !(localCore issuer a < Config.cores && c.holdsCore (localCore issuer a)) ||
        0x30000 ≤ fld a 0 18 || (8 < n && 0x30000 < fld a 0 18 + n)
    else if cls = 2 then
      match c.view? a with
      | none => true
      | some v => v.extent (fld a 47 2) < fld a 0 47 + n || !c.segAllows (v.base * 4096) v.bytes rd wr
    else true

/-- How an access is checked for alignment (R42, R172). -/
inductive AccKind where | plain | fe | atomic
  deriving DecidableEq, Repr

/-- Whether an access of n bytes traps with ALIGN (R42, R172, R314). -/
def alignFault (c : Ctx) (a : W64) (n : Nat) (k : AccKind) : Bool :=
  a.toNat % n ≠ 0 ||
    match k with
    | .plain => false
    | .fe | .atomic =>
      !bit a 63 && fld a 61 2 = 2 &&
        (fld a 47 2 = 3 || match c.view? a with
          | none => false
          | some v => match k with | .fe => v.e ≠ 8 | _ => v.e < n)

/-- Whether a peer-table entry is valid: STATE 00, coordinates inside the ring sizes, number below 1,152 (R43, R431). -/
def State.peerValid (s : State) (p : Nat) : Bool :=
  let e := s.ni.table.getD p 1
  p < 1152 && fld e 0 2 = 0 && fld e 2 3 < fld s.ni.ring 11 4 && fld e 5 4 < fld s.ni.ring 15 4 &&
    fld e 9 4 < fld s.ni.ring 19 4

/-- The peer of a global address. -/
def peerOf (a : W64) : Nat := fld a 52 11

/-- The checks of R172, steps 1 to 3, in order. -/
def State.addrFault (s : State) (c : Ctx) (issuer : Nat) (a : W64) (n : Nat) (rd wr : Bool) (k : AccKind) :
    Option Cause :=
  if protectFault c issuer a n rd wr then some .protect
  else if alignFault c a n k then some .align
  else if bit a 63 && !(bit c.features 10 && s.peerValid (peerOf a)) then some .nopeer
  else none

/-- The location of byte i of an access at a checked address (R40). -/
def locOf (c : Ctx) (issuer : Nat) (a : W64) (i : Nat) : ByteLoc :=
  if bit a 63 then .global (peerOf a) (fld a 0 52 + i)
  else if fld a 61 2 = 0 then .dram (fld a 0 39 + i)
  else if fld a 61 2 = 1 then .store (localCore issuer a) (fld a 0 18 + i)
  else match c.view? a with
    | some v => v.loc (fld a 47 2) (fld a 0 47 + i)
    | none => .dram 0

/-- The locations of an access of n bytes. -/
def locsOf (c : Ctx) (issuer : Nat) (a : W64) (n : Nat) : List ByteLoc := (List.range n).map (locOf c issuer a)

/-! ### Forwarding from the store buffer (R173) -/

/-- Whether two locations share a bit. -/
def ByteLoc.overlaps : ByteLoc → ByteLoc → Bool
  | .dram a, .dram b => a == b
  | .store c o, .store c' o' => c == c' && o == o'
  | .global p v, .global p' v' => p == p' && v == v'
  | .plane l, .plane l' => l.any (fun b => l'.contains b)
  | .plane l, .dram a => l.any (fun b => b.1 == a)
  | .dram a, .plane l => l.any (fun b => b.1 == a)
  | _, _ => false

/-- The bytes that a buffered store writes, with their values: only data stores are forwarded. -/
def StorePart.writes (p : StorePart) : List (ByteLoc × Byte) :=
  match p.op with
  | .store n v => p.locs.zip (leBytes n v.toNat)
  | .fill v => p.locs.zip (leBytes 8 v.toNat)
  | _ => []

/-- The value of bit i of a location under one written byte, if the write covers it. -/
def coverBit (w : ByteLoc × Byte) (l : ByteLoc) (i : Nat) : Option Bool :=
  match w.1, l with
  | .plane pl, .plane ql =>
    match ql[i]? with
    | some b => (pl.idxOf? b).map (fun j => w.2.getLsbD j)
    | none => none
  | .plane pl, .dram a => (pl.idxOf? (a, i)).map (fun j => w.2.getLsbD j)
  | .dram a, .plane ql =>
    match ql[i]? with
    | some b => if b.1 = a then some (w.2.getLsbD b.2) else none
    | none => none
  | wl, l => if wl = l then some (w.2.getLsbD i) else none

/-- A byte as a load of the thread sees it, over one written byte. -/
def overlayByte (w : ByteLoc × Byte) (l : ByteLoc) (b : Byte) : Byte :=
  if w.1 = l then w.2
  else if w.1.overlaps l then
    (List.range 8).foldl (fun b i => match coverBit w l i with | some v => setBit b i v | none => b) b
  else b

/-- A byte as a load of the thread sees it: the newest buffered store that covers it stands (R173). -/
def forwardByte (sb : List StoreEntry) (l : ByteLoc) (b : Byte) : Byte :=
  sb.foldl (fun b e => e.parts.foldl (fun b p => if p.done then b else p.writes.foldl (fun b w => overlayByte w l b) b) b) b

/-- Whether a byte's value comes from the store buffer. -/
def forwarded (sb : List StoreEntry) (l : ByteLoc) : Bool :=
  sb.any (fun e => e.parts.any (fun p => !p.done && p.writes.any (fun w => w.1 == l)))

/-! ### Translation (R317, R318) -/

/-- The address of a table that a pointer entry names (log 2). -/
def tableAddr (e : W64) : Nat := fld e 12 27 * 4096

/-- The leaf of a virtual address in a context's tables, and whether it maps 1 GiB (R317). -/
def State.tableWalk (s : State) (c : Ctx) (va : W64) : Option (W64 × Bool) :=
  let e1 := s.mem.word (c.tbl + fld va 39 13 * 8)
  if !bit e1 0 then none
  else
    let e2 := s.mem.word (tableAddr e1 + fld va 30 9 * 8)
    if !bit e2 0 then none
    else if bit e2 1 then some (e2, true)
    else
      let e3 := s.mem.word (tableAddr e2 + fld va 21 9 * 8)
      if bit e3 0 then some (e3, false) else none

/-- The leaf of a page that an UNPIN has marked: until the UNPIN completes, accesses are translated to the old frame (R300,
R325). -/
def State.unpinning (s : State) (asid : Nat) (va : W64) : Option (W64 × Bool) :=
  s.queues.findSome? (fun (q : Nat × QueueRec) =>
    if q.2.ctx = asid then
      (q.2.unpins.find? (fun p => p.1 ≤ fld va 0 52 && fld va 0 52 < p.1 + (if p.2.2 then 2 ^ 30 else 2 ^ 21))).map (·.2)
    else none)

/-- The leaf under which a virtual address is translated now (R300, R317). -/
def State.walk (s : State) (c : Ctx) (va : W64) : Option (W64 × Bool) :=
  match s.tableWalk c va with
  | some e => some e
  | none => s.unpinning c.asid va

/-- The physical address of a virtual address under a leaf (R318). -/
def leafAddr (e : W64 × Bool) (va : W64) : Nat :=
  fld e.1 21 18 * 2 ^ 21 + (if e.2 then fld va 0 30 else fld va 0 21)

/-- One name for one byte (R284): a global byte of this package is the DRAM byte that its translation gives. -/
def State.oneName (s : State) (c : Ctx) : ByteLoc → ByteLoc
  | .global p va =>
    if p = s.ni.peer then
      match s.walk c (at_ va 0) with
      | some e => .dram (leafAddr e (at_ va 0))
      | none => .global p va
    else .global p va
  | l => l

/-- A thread's store buffer with one name for each byte. -/
def State.bufferOf (s : State) (th : Thread) : List StoreEntry :=
  th.sbuf.map (fun e => { e with parts := e.parts.map (fun p => { p with locs := p.locs.map (s.oneName (s.ctxOf th)) }) })

/-- The value of a load of the thread, zero when it touches a poisoned cell, and the poisoned cells met (R34, R173, R174). -/
def State.loadFwd (s : State) (th : Thread) (locs : List ByteLoc) : W64 × List Nat :=
  let sb := s.bufferOf th
  let ls := locs.map (s.oneName (s.ctxOf th))
  let pois := ((ls.filter (fun l => !forwarded sb l)).flatMap (fun l => (s.ploc th.id.core l).cells)).eraseDups.filter s.mem.poisoned
  if pois.isEmpty then
    (BitVec.ofNat 64 (leNat (ls.map (fun l => forwardByte sb l (s.mem.readP (s.ploc th.id.core l))))), [])
  else (0, pois)

/-- A 64-bit word of a list of bytes. -/
def wordOf (b : List Byte) (i : Nat) : W64 := BitVec.ofNat 64 (leNat ((b.drop (8 * i)).take 8))

/-- Words of the issuing core's local store, read at issue as LD.D reads them (R247, R258): the words, and for each poisoned
cell met its offset. -/
def State.readWords (s : State) (th : Thread) (off words : Nat) : List W64 × List Nat :=
  let l := (List.range words).map (fun i =>
    (off + 8 * i, s.loadFwd th ((List.range 8).map (fun j => ByteLoc.store th.id.core (off + 8 * i + j)))))
  (l.map (·.2.1), (l.filter (fun x => !x.2.2.isEmpty)).map (·.1))

/-- Bytes of the issuing core's local store, read at issue in the same way (R258, R273). -/
def State.readList (s : State) (th : Thread) (off n : Nat) : List Byte × List Nat :=
  let l := (List.range n).map (fun i => (off + i, s.loadFwd th [.store th.id.core (off + i)]))
  (l.map (fun x => BitVec.ofNat 8 x.2.1.toNat), ((l.filter (fun x => !x.2.2.isEmpty)).map (fun x => x.1 / 8 * 8)).eraseDups)

/-- FCSR.PTE (R21). -/
def Thread.pte (th : Thread) : Bool := bit th.csr.fcsr 17

/-- A correctable error may be met by an access or an engine of a context: it is corrected and counted (R303, R309, R361). -/
def State.mayCorrect (s : State) (asid key : Nat) : State :=
  let d := s.draw 2
  if d.1 = 1 then d.2.count asid (if key < 2 ^ 39 then 4 else 2) 1 else d.2

/-- What an instruction does with what it reads at issue, given the offsets of the poisoned cells met: such a cell reads as zero,
is counted and sets FCSR.POISON, or traps with POISON under PTE (R34, R174). -/
def State.withRead {α : Type} (s : State) (th : Thread) (a : W64) (r : α × List Nat) (k : State → α → Effect) : Effect :=
  let s0 := s.mayCorrect th.asid (localKey th.id.core 0)
  match r.2 with
  | [] => k s0 r.1
  | o :: _ =>
    let s1 := s0.count th.asid 8 r.2.length
    if th.pte then .ok (s1.trap th.id .poison (a - BitVec.ofNat 64 (fld a 0 18) + BitVec.ofNat 64 o) th.insn)
    else k (s1.setPoison th.id) r.1

/-- An instruction that reads a block of its core's local store as LD.D does (R247, R258). -/
def State.withWords (s : State) (th : Thread) (a : W64) (words : Nat) (k : State → List W64 → Effect) : Effect :=
  s.withRead th a (s.readWords th (fld a 0 18) words) k

/-- The cells of a location, each under one name: a byte of a bit-plane view covers the cells of its eight bits (R314). -/
def ByteLoc.cells : ByteLoc → List (Nat × Nat)
  | .dram a => [(0, a / 8)]
  | .store c o => [(1 + c, o / 8)]
  | .global p v => [(2 ^ 20 + p, v / 8)]
  | .plane l => l.map (fun b => (0, b.1 / 8))

/-- Whether an operation is performed at once in a HOLD region, ahead of the stores held there (R218). -/
def opPassesHeld : CellOp → Bool
  | .putEmpty _ | .amo _ _ | .cas _ _ _ => true
  | _ => false

/-- Whether a store of the thread to one of the cells of an access is still to be performed before it (R173, R218). -/
def State.storesToCells (s : State) (th : Thread) (op : CellOp) (locs : List ByteLoc) : Bool :=
  let cs := locs.flatMap (fun l => (s.oneName (s.ctxOf th) l).cells)
  (s.bufferOf th).any (fun e => !(opPassesHeld op && e.held.isSome) && e.parts.any (fun p => !p.done && p.locs.any (fun l => l.cells.any cs.contains)))

end Sys2Proof.Machine
end

