-- ==== Sys2Proof/Machine/Ni.lean ====
section
/-! DEFINITION. The network interface: routes, holds, request numbering and injection, translation, and the request
record (spec 14 R317, R318; 23 R425, R431 to R437, R445). -/

namespace Sys2Proof.Machine

/-! ### Routes (R424, R425) -/

/-- A coordinate. -/
abbrev Coord := Nat × Nat × Nat

/-- The package's own coordinate and the ring sizes (R443). -/
def ringOwn (r : W64) : Coord := (fld r 0 3, fld r 3 4, fld r 7 4)
def ringSize (r : W64) : Coord := (fld r 11 4, fld r 15 4, fld r 19 4)

/-- The coordinate of a peer-table entry (R431). -/
def entryCoord (e : W64) : Coord := (fld e 2 3, fld e 5 4, fld e 9 4)

/-- Hops in one dimension: number and whether in the + direction; a tie goes + (R425). -/
def dimHops (own target n : Nat) : Nat × Bool :=
  let d := (target + n - own) % n
  if d ≤ n - d then (d, true) else (n - d, false)

/-- The coordinate one hop further in a dimension of ring size n. -/
def nextCoord (x n : Nat) (plus : Bool) : Nat := if plus then (x + 1) % n else (x + n - 1) % n

/-- The links crossed in one dimension: the coordinate left and whether in the + direction. -/
def dimLinks (n : Nat) (plus : Bool) : Nat → Nat → List (Nat × Bool)
  | 0, _ => []
  | k + 1, x => (x, plus) :: dimLinks n plus k (nextCoord x n plus)

/-- The hops of a dimension, the other way round its ring when it is among those named (R435). -/
def dimWay (own target n : Nat) (other : Bool) : Nat × Bool :=
  let h := dimHops own target n
  if other && h.1 ≠ 0 then (n - h.1, !h.2) else h

/-- The links that a request crosses: each a coordinate and the port left by (0 X+, 1 X−, 2 Y+, 3 Y−, 4 Z+, 5 Z−); in the dimensions
named it goes round the ring by the other direction (R425, R435). -/
def route (own target size : Coord) (other : List Nat := []) : List (Coord × Nat) :=
  let (ox, oy, oz) := own
  let (tx, ty, tz) := target
  let (nx, ny, nz) := size
  let hx := dimWay ox tx nx (other.contains 0)
  let hy := dimWay oy ty ny (other.contains 1)
  let hz := dimWay oz tz nz (other.contains 2)
  (dimLinks nx hx.2 hx.1 ox).map (fun l => ((l.1, oy, oz), if l.2 then 0 else 1)) ++
    (dimLinks ny hy.2 hy.1 oy).map (fun l => ((tx, l.1, oz), if l.2 then 2 else 3)) ++
    (dimLinks nz hz.2 hz.1 oz).map (fun l => ((tx, ty, l.1), if l.2 then 4 else 5))

/-- The route to a peer under the tables in force (R431). -/
def State.routeTo (s : State) (peer : Nat) (other : List Nat := []) : List (Coord × Nat) :=
  route (ringOwn s.ni.ring) (entryCoord (s.ni.table.getD peer 1)) (ringSize s.ni.ring) other

/-- Hops to a peer. -/
def State.hops (s : State) (peer : Nat) : Nat := (s.routeTo peer).length

/-- The link by which a port of a package is left. -/
def State.linkOf (s : State) (peer port : Nat) : Coord × Nat :=
  (if peer = s.ni.peer then ringOwn s.ni.ring else entryCoord (s.ni.table.getD peer 1), port)

/-- Whether a hold in force stops what takes a route (R445); a package that the peer table disables has no link on a route. -/
def State.holdsOn (s : State) (route : List (Coord × Nat)) : Bool :=
  route.any (fun l => s.ni.holds.any (fun h => (h.1 == s.ni.peer || s.peerValid h.1) && s.linkOf h.1 h.2 == l))

/-! ### Requests (R433 to R437) -/

/-- The worst case of a global access in the bounded class (R344). -/
def State.globalBound (s : State) (peer : Nat) : Nat := 2 * (600 + 200 * s.hops peer) + 8 + 1680 + 560

/-- The kernel whose slot plan a thread's packets use: a DET2 kernel launched with PLANEN (R404, R405). -/
def State.plannedKernel (s : State) (kernel : Nat) : Option Nat :=
  match s.kernels.find? kernel with
  | some k => if k.detlvl = 2 && k.planen && k.phase = .dispatched then some kernel else none
  | none => none

/-- A free number below a bound (any number, when it is 0) that a planned kernel's traffic draws: it repeats from run to run, by the
ticks since the kernel's dispatch; that of other traffic does not (R342). -/
def State.drawFor (s : State) (kernel : Option Nat) (t bound salt : Nat) : Nat × State :=
  match kernel.bind (fun k => s.kernels.find? k) with
  | some k => (if bound = 0 then Config.planNat (t - k.dispatchTick) salt else Config.planNat (t - k.dispatchTick) salt % bound, s)
  | none => s.draw bound

/-- The kernel with a slot plan of a request's thread, when it is of this package. -/
def State.reqKernel (s : State) (r : GReq) : Option Nat :=
  if r.src = s.ni.peer then (s.thread? r.tid).bind (fun th => s.plannedKernel th.kernel) else none

/-- Sends a request: its delivery bound starts; a request to the package's own peer comes back to its own NI after a free time; in the
bounded class it and the crossings to and from the NI leave R344's figure without hops to be divided in any way (R43, R344, R435, R437).
Requests of a pair are performed in order, so those before it come no later (R434). -/
def State.inject (s : State) (r : GReq) : State :=
  let s1 := s.after_ s.fabric.dbound.toNat rankLast (.deliveryBoundExpiry r.target r.seq)
  if r.target = s.ni.peer then
    let d := s1.drawFor (s1.reqKernel r) s.ticks (if r.bounded then 2200 else 0) (tkey r.tid)
    (d.2.pullForward (s.ticks + 1 + d.1) (fun e => match e with | .globalRequestArrival q => q.src == r.src | _ => false)).after_
      (1 + d.1) (rankArrive (globalName r.src r.tid)) (.globalRequestArrival r)
  else s1

/-- The own port by which the route to a peer leaves (R425, R447); none for the own peer. -/
def State.firstPort (s : State) (peer : Nat) : Option Nat := (s.routeTo peer).head?.map (·.2)

/-- The edge gateway that serves accesses to a peer: that of the port by which they leave (R399; log 120). -/
def State.gate (s : State) (peer : Nat) : Nat := ((s.firstPort peer).getD Config.ownGate) % Config.gates

/-- The own port by which an injected request leaves: its route is fixed at its injection (R425, R431). -/
def OutReq.port (o : OutReq) : Option Nat := o.route.head?.map (·.2)

/-- The route of a request: the one it was injected with, or the one that the tables in force give it (R425, R431, R452). -/
def State.linksOf (s : State) (o : OutReq) : List (Coord × Nat) := if o.sent then o.route else s.routeTo o.req.target o.otherDir

/-- Changes the record of a port. -/
def State.modPort (s : State) (p : Nat) (f : Port → Port) : State :=
  { s with fabric := { s.fabric with ports := s.fabric.ports.setD p (f (s.fabric.ports.getD p Port.reset)) Port.reset } }

/-- Changes one of the requests kept at the NI. -/
def State.modReq (s : State) (peer seq : Nat) (f : OutReq → OutReq) : State :=
  { s with ni := { s.ni with out := s.ni.out.map (fun o => if o.req.target == peer && o.req.seq == seq then f o else o) } }

/-- Sends every request that waits at injection and that no hold and no count of 4,096 unanswered requests stops, in
order of number (R434, R436, R445). One whose target entry is valid no longer is abandoned there (R452). -/
def State.injectAll (s : State) : State :=
  s.ni.out.foldl (fun (a : State) (o : OutReq) =>
    if o.sent || !o.here || o.holdTo ≠ 0 then a
    else if a.holdsOn (a.linksOf o) then
      if o.wasHeld then a
      else
        let a1 := a.modReq o.req.target o.req.seq (fun p => { p with wasHeld := true })
        match (a.linksOf o).head?.map (·.2) with
        | some p => a1.modPort p (fun r => { r with held := r.held + 1 })
        | none => a1
    else if !a.peerValid o.req.target then
      (a.modReq o.req.target o.req.seq (fun p => { p with sent := true, gone := true })).sched_ a.ticks rankLast
        (.deliveryBoundExpiry o.req.target o.req.seq)
    else if 4096 ≤ (a.ni.out.filter (fun p => p.sent && p.req.target == o.req.target)).length then a
    else
      let r := { o.req with ts := a.ticks }
      (a.modReq r.target r.seq (fun p => { p with req := r, sent := true, route := a.linksOf o })).inject r) s

/-- Takes the next number of a request to a peer (R434). -/
def State.nextNumber (s : State) (peer : Nat) : Nat × State :=
  let n := s.ni.nextSeq.getD peer 0
  (n, { s with ni := { s.ni with nextSeq := s.ni.nextSeq.put peer ((n + 1) % 2 ^ 32) } })

/-- Hands a request to the NI: numbered when it is there, else under a provisional number above all others (R434). -/
def State.enqueue (s : State) (asid : Nat) (tid : Tid) (a : W64) (op : CellOp) (limit : Nat) (pte : Bool)
    (det : Option (W64 × BitVec 32)) (store : Option Nat) (nomig : Bool) (queue : Option Nat) (here : Bool) (bounded : Bool := false)
    (fit : Nat × Nat := (0, 0)) : (Nat × Nat) × State :=
  let p := peerOf a
  let n := if here then s.nextNumber p else (2 ^ 32 + s.fresh.1, s.fresh.2)
  let r : GReq := { src := s.ni.peer, target := p, seq := n.1, asid := asid, tid := tid, va := a &&& 0xFFFFFFFFFFFFF,
                    op := op, ts := s.ticks, limit := limit, pte := pte, det := det, nomig := nomig,
                    bounded := bounded, xsize := fit.1, wheelCount := fit.2 }
  ((p, n.1), { n.2 with ni := { n.2.ni with
      out := n.2.ni.out ++ [{ req := r, store := store, here := here, sent := false, otherDir := [], wasHeld := false, gone := false,
                              heldTo := 0, holdTo := 0, route := [], queue := queue }] } })

/-- A lane or a part goes by the number that its request has got. -/
def renumber (old new : Nat × Nat) (k : Option (Nat × Nat)) : Option (Nat × Nat) := if k = some old then some new else k

/-- A thread's lanes and stores go by the number that a request has got at the NI. -/
def Thread.renumber (th : Thread) (old new : Nat × Nat) : Thread :=
  let lane := fun (l : Lane) => { l with sent := Sys2Proof.Machine.renumber old new l.sent }
  { th with
    sbuf := th.sbuf.map (fun e => { e with parts := e.parts.map (fun p => { p with sent := Sys2Proof.Machine.renumber old new p.sent }) }),
    run := match th.run with
      | .parked (.access a) => .parked (.access { a with lanes := a.lanes.map lane })
      | r => r }

/-- The other name of a waiting access in its withdrawal. -/
def renumberOp (peer old new : Nat) (o : OutReq) : OutReq :=
  match o.req.op with
  | .withdraw m => if o.req.target = peer && m = old then { o with req := { o.req with op := .withdraw new } } else o
  | _ => o

/-- A request reaches the NI, which numbers it (R434). It leaves for another package as soon as the allowance of bounded flits and the
credits of the rings let it (R426, R429, R452; log 121). -/
def State.takesIn (s : State) (peer prov : Nat) : State :=
  match s.ni.out.find? (fun o => o.req.target == peer && o.req.seq == prov) with
  | none => s
  | some o =>
    let n := s.nextNumber peer
    let rest := n.2.ni.out.filter (fun x => !(x.req.target == peer && x.req.seq == prov))
    let d := if peer = s.ni.peer then (0, n.2) else n.2.drawFor (n.2.reqKernel o.req) s.ticks 0 (tkey o.req.tid)
    let s1 := ({ d.2 with ni := { d.2.ni with
      out := rest.map (renumberOp peer prov n.1) ++
        [{ o with req := { o.req with seq := n.1 }, here := true, holdTo := if d.1 = 0 then 0 else s.ticks + d.1 }] } }).modThread o.req.tid
          (·.renumber (peer, prov) (peer, n.1))
    (if d.1 = 0 then s1 else s1.after_ d.1 rankLast (.requestResend peer n.1)).injectAll

/-- Whether what a thread sends over the rings is of the bounded class: its access is, or its kernel runs at DET2 (R428, R430). -/
def ringBounded (th : Thread) (bounded : Bool) : Bool := bounded || th.csr.detlvl == 2

/-- A request of a thread as it stands at its NI, with its class, and what it takes to place the thread elsewhere (R196, R320); nomig
asks for data. -/
def State.enqueueFor (s : State) (th : Thread) (a : W64) (op : CellOp) (limit : Nat) (pte : Bool)
    (det : Option (W64 × BitVec 32)) (store : Option Nat) (nomig here bounded : Bool) : (Nat × Nat) × State :=
  s.enqueue th.asid th.id a op limit pte det store nomig none here (ringBounded th bounded)
    (th.xsize, ((List.range 64).filter (bit th.wheel)).length)

/-- Drops an answered or expired request (R435). -/
def State.dropReq (s : State) (peer seq : Nat) : State :=
  { s with ni := { s.ni with out := s.ni.out.filter (fun o => !(o.req.target == peer && o.req.seq == seq)) } }

def State.outReq? (s : State) (peer seq : Nat) : Option OutReq :=
  s.ni.out.find? (fun o => o.req.target == peer && o.req.seq == seq)

/-! ### Kinds of operation (R176, R316) -/

/-- The rights an operation needs (R316): LDS.TAKE and STS.PUTEMPTY, like an atomic, need both (log 130). -/
def opRights (op : CellOp) : Bool × Bool :=
  match op with
  | .load _ | .waitFull | .peek => (true, false)
  | .withdraw _ => (false, false)
  | .store _ _ | .fill _ | .clear => (false, true)
  | .take | .putEmpty _ | .amo _ _ | .cas _ _ _ => (true, true)

/-- Whether an operation only reads (R176). -/
def opReads (op : CellOp) : Bool :=
  match op with
  | .load _ | .waitFull | .peek => true
  | _ => false

/-- Whether an operation is a store that does not park (R176, R177). -/
def opStores (op : CellOp) : Bool :=
  match op with
  | .store _ _ | .fill _ | .clear => true
  | _ => false

/-- Sends a message to another package. -/
def State.tell (s : State) (peer : Nat) (m : MsgOut) : State := { s with ni := { s.ni with msgs := s.ni.msgs ++ [(peer, m)] } }

/-! ### The record of performed requests (R436) -/

/-- Whether a number has been performed or abandoned, and its kept answer. -/
def State.recorded (s : State) (src seq : Nat) : Option (Option GResult) :=
  (s.ni.record.find? (fun e => e.1 == src && e.2.1 == seq)).map (·.2.2)

/-- Notes a number as taken: the record keeps the 4,096 numbers up to the highest (R436). -/
def State.recordReq (s : State) (src seq : Nat) (r : Option GResult) : State :=
  { s with ni := { s.ni with
      high := s.ni.high.put src ((seq + 1) % 2 ^ 32),
      record := (s.ni.record.filter (fun e => !(e.1 == src && 4096 ≤ (seq + 2 ^ 32 - e.2.1) % 2 ^ 32))) ++ [(src, seq, r)] } }

/-- Completes the record of a number whose answer was still open (a waiting full/empty access). -/
def State.recordAnswer (s : State) (src seq : Nat) (r : GResult) : State :=
  { s with ni := { s.ni with record := s.ni.record.map (fun e =>
      if e.1 == src && e.2.1 == seq then (src, seq, some r) else e) } }

/-- Sends an answer to the issuing peer under the next number of the way back (R433, R434, R437): to the package's own peer it arrives
after a free delay, behind the answers sent before it. -/
def State.respond (s : State) (src seq asid : Nat) (tid : Tid) (r : GResult) (bounded : Bool := false) : State :=
  let n := s.ni.respOut.getD src 0
  let m : GResp := { peer := s.ni.peer, target := src, asid := asid, num := n, seq := seq, result := r }
  let s1 := { s with ni := { s.ni with respOut := s.ni.respOut.put src ((n + 1) % 2 ^ 32) } }
  if src = s.ni.peer then
    let d := s1.drawFor ((s.thread? tid).bind (fun th => s.plannedKernel th.kernel)) s.ticks (if bounded then 440 else 0) (tkey tid)
    (d.2.pullForward (s.ticks + 1 + d.1) (fun e => match e with | .globalResponseArrival q => q.peer == src | _ => false)).after_
      (1 + d.1) (rankArrive (globalName src tid)) (.globalResponseArrival m)
  else { s1 with ni := { s1.ni with responses := s1.ni.responses ++ [(src, m)] } }

end Sys2Proof.Machine
end

