-- ==== Sys2Proof/Machine/Xbar.lean ====
section
/-! DEFINITION. The on-chip network at work: packets in the routers of the dies, at the stations of the photonic crossbar
and on its home channels, the bounded ticks, the tokens, the slot plans and the ebb (spec 22 R397 to R407). -/

namespace Sys2Proof.Machine

/-! ### Homes, stations and routers (R397, R406) -/

/-- The cluster of die 0 whose router joins a gateway (R406). -/
def gateCluster (g : Nat) : Nat := Config.gateCluster g % 72

/-- The first home of the gateways. -/
def gateHome : Nat := Config.clusters + Config.channels

/-- The station that serves a home: its die's, or its DRAM stack's (R397); a gateway's is that of die 0. -/
def stationOf (home : Nat) : Nat :=
  if home < Config.clusters then home / 72 else if home < gateHome then 4 + (home - Config.clusters) / 16 else 0

/-- The home of a port: a core's cluster, a DRAM channel, a gateway. -/
def portHome (port : Nat) : Nat := if port < Config.cores then clusterOf port else Config.clusters + (port - Config.cores)

/-- The port of a gateway, in the order of core ports, channel ports and gateways (R402). -/
def gatePort (g : Nat) : Nat := Config.cores + Config.channels + g

/-- The home channel on which packets travel to a home: a gateway is reached as its cluster (R399). -/
def beamOf (home : Nat) : Nat := if home < gateHome then home else gateCluster (home - gateHome)

/-- The router of a home on a die: a cluster's, or a gateway's own. -/
def routerOf (home : Nat) : Nat := if home < gateHome then home else Config.clusters + (home - gateHome)

/-- The cluster router at, or next to, a router. -/
def meshRouter (n : Nat) : Nat := if n < Config.clusters then n else gateCluster (n - Config.clusters)

/-- The router of a cluster's die by which its packets leave for the station and come in from it. -/
def edgeOf (c : Nat) : Nat := c / 72 * 72 + Config.edgeRouter c % 72

/-- Columns of a die's mesh. -/
def meshCols : Nat := 1 + Config.meshColumns % 72

/-- Steps from a to b, both included on the far side only. -/
def stepsTo (step : Nat) : Nat → Nat → Nat → List Nat
  | 0, _, _ => []
  | k + 1, a, b =>
    if a = b then [] else if a < b then (a + step) :: stepsTo step k (a + step) b else (a - step) :: stepsTo step k (a - step) b

/-- The routers that a packet passes behind cluster router a on its way to cluster router b of the die, first along the row, then along
the column: the dimension order of the mesh (R406, log 103). -/
def clusterPath (a b : Nat) : List Nat :=
  let base := a / 72 * 72
  let turn := a % 72 / meshCols * meshCols + b % 72 % meshCols
  ((stepsTo 1 72 (a % 72) turn) ++ (stepsTo meshCols 72 turn (b % 72))).map (base + ·)

/-- The way between two routers of a die, a gateway's router among them. -/
def meshPath (a b : Nat) : List Nat :=
  (if a = meshRouter a then [] else [meshRouter a]) ++ clusterPath (meshRouter a) (meshRouter b) ++
    (if b = meshRouter b then [] else [b])

/-! ### The ebb (R407, R408) -/

/-- The tick of the ebb's cycle. -/
def ebbTick (t : Nat) : Nat := t % 65536

/-- Every lane of every router stops. -/
def ebbStop (t : Nat) : Bool := [65344, 65345, 65534, 65535].contains (ebbTick t)

/-- General-lane packets move along the preset cycles. -/
def ebbShift (t : Nat) : Bool := 65346 ≤ ebbTick t && ebbTick t ≤ 65533

/-- Phases of stopped lanes that have begun by a tick. -/
def ebbPhases (t : Nat) : Nat :=
  t / 65536 * 2 + (if 65344 ≤ ebbTick t then 1 else 0) + (if 65534 ≤ ebbTick t then 1 else 0)

/-- Whether the lanes have stopped since a tick (R408). -/
def ebbMet (since now : Nat) : Bool := ebbPhases since ≠ ebbPhases now || ebbStop since

/-- One row of the preset cycle: along it and back (log 103). -/
def ebbRow (base len : Nat) : List Nat :=
  (List.range len).map (base + ·) ++ ((List.range (len - 1)).reverse).map (base + ·)

/-- The preset cycle of a die: at most 188 buffers that pass every router, and with it every station, gateway and core port: row after
row, along each and back, then back along the first column (R407, log 103). -/
def ebbCycle : List Nat :=
  let rows := (71 + meshCols) / meshCols
  (List.range rows).flatMap (fun r => ebbRow (r * meshCols) (Nat.min meshCols (72 - r * meshCols))) ++
    (((List.range (rows - 1)).drop 1).reverse).map (· * meshCols)

/-- The cluster router at a buffer of a die's preset cycle. -/
def ebbAt (die buf : Nat) : Nat := die * 72 + ebbCycle.getD buf 0

/-! ### Sending (R398, R399, R402, R405) -/

/-- Beats of a packet: its header beat carries up to 128 bytes, and a packet at most 512 (R398). -/
def beatsOf (bytes : Nat) : Nat := Nat.max 1 (Nat.min 4 ((bytes + 127) / 128))

/-- Ticks until a packet must have left the first part of its way in the bounded class (R343): the routers to the station, or
the one router within a cluster, or the port of a channel. -/
def firstLeg (src dst : Nat) : Nat :=
  if Config.clusters ≤ src && src < gateHome then 4 else if src = dst then 7 else 13

/-- Whether a lane of a link into a router has a buffer free (R406). -/
def State.laneRoom (s : State) (router link : Nat) (bounded : Bool) : Bool :=
  (s.xbar.pkts.filter (fun p => p.place == .router router && p.link == link && p.bounded == bounded)).length ≤ Config.laneBuffers

/-- Whether a home has routers: a cluster or a gateway. -/
def onMesh (home : Nat) : Bool := home < Config.clusters || gateHome ≤ home

/-- A packet of a number of bytes sets out from home src to home dst after a number of ticks (0: in this tick). -/
def State.netSend (s : State) (src dst flow : Nat) (bounded : Bool) (kernel : Option Nat) (bytes wait latest tail rank : Nat) (stops : Bool)
    (e : Instr) : State :=
  let f := s.fresh
  let p : NetPkt :=
    { id := f.1, bounded := bounded, kernel := kernel, src := src, dst := dst, flow := flow, beats := beatsOf bytes,
      place := .source, link := 1000,
      path := if src = dst || !onMesh src then [] else meshPath (routerOf src) (edgeOf (meshRouter (routerOf src))),
      ready := s.ticks + 1 + wait, limit := s.ticks + wait + firstLeg src dst, stops := stops, since := 0, latest := latest, tail := tail,
      rank := rank, event := e }
  { f.2 with xbar := { f.2.xbar with pkts := f.2.xbar.pkts ++ [p] } }

/-- An operation under way at a port is over by a tick. -/
def clipOp (op : PortOp) (due : Nat) : PortOp :=
  match op with
  | .loadOf t d => .loadOf t (Nat.min d due)
  | .storeOf t id d => .storeOf t id (Nat.min d due)
  | x => x

/-- Packets of one flow keep their order at the target port (R402), so one of the bounded class takes those of its flow that
are still under way into its class; those that have reached the port are performed there within the port's own time (R343; log 104). -/
def State.promote (s : State) (flow : Nat) : State :=
  let due := s.ticks + (if flow % 8192 < Config.cores then 8 else 405)
  let late := fun (e : Instr) => match e with | .crossbarPacketArrival src port _ _ => src * 8192 + port == flow | _ => false
  let s1 := s.pullForward due late
  { s1 with xbar := { s1.xbar with
      pkts := s1.xbar.pkts.map (fun p =>
        if p.flow = flow && !p.bounded then { p with bounded := true, limit := s.ticks + firstLeg p.src p.dst } else p),
      early := s1.xbar.early.map (fun e => if e.1 = flow then (e.1, e.2.1, clipOp e.2.2 due) else e) } }

/-- A port sends a packet to another, under its next number for it (R399, R402). -/
def State.portPacket (s : State) (src dst : Nat) (bounded : Bool) (kernel : Option Nat) (bytes wait tail rank : Nat) (stops : Bool)
    (op : PortOp) : State :=
  let key := src * 8192 + dst
  let n := s.xbar.nextOut.getD key 0
  let s1 := { s with xbar := { s.xbar with nextOut := s.xbar.nextOut.put key ((n + 1) % 65536) } }
  (if bounded then s1.promote key else s1).netSend (portHome src) (portHome dst) key bounded kernel bytes wait 0 tail rank stops
    (.crossbarPacketArrival src dst n op)

/-! ### Slot plans (R403 to R405) -/

/-- The number of a general tick in its frame (R403). -/
def generalTick (t : Nat) : Nat := t % 65536 % 96 / 4 * 3 + t % 4

/-- Whether an entry of a plan claims a tick for a station and a home channel. -/
def claimsTick (e : W64) (t st h : Nat) : Bool :=
  fld e 20 7 ≠ 0 && fld e 0 9 == h && fld e 9 4 == st && t % 4 != 3 && fld e 13 7 ≤ generalTick t &&
    generalTick t < fld e 13 7 + fld e 20 7

/-- The plan of a kernel. -/
def State.planOf (s : State) (k : Nat) : List W64 :=
  match s.kernels.find? k with
  | some r => s.qp.plans.getD r.plan []
  | none => []

/-- The live kernel and the station that claim a tick of a home channel. -/
def State.claimOf (s : State) (t h : Nat) : Option (Nat × Nat) :=
  if t % 4 = 3 then none
  else (s.kernels.filter (fun e => (s.plannedKernel e.1).isSome)).findSome? (fun e =>
    ((s.planOf e.1).find? (fun w => claimsTick w t (fld w 9 4) h)).map (fun w => (e.1, fld w 9 4)))

/-- Whether a packet's kernel has a plan that names its station and home channel: then it uses only claimed ticks (R405). -/
def State.isPlanned (s : State) (p : NetPkt) : Bool :=
  match p.kernel with
  | none => false
  | some k => (s.plannedKernel k).isSome &&
    (s.planOf k).any (fun w => fld w 20 7 ≠ 0 && fld w 0 9 == beamOf p.dst && fld w 9 4 == stationOf p.src)

/-! ### One tick -/

/-- Replaces, moves to the end or takes out a packet. -/
def State.putPkt (s : State) (p : NetPkt) : State :=
  { s with xbar := { s.xbar with pkts := s.xbar.pkts.map (fun x => if x.id = p.id then p else x) } }
def State.dropPkt (s : State) (id : Nat) : State :=
  { s with xbar := { s.xbar with pkts := s.xbar.pkts.filter (fun x => !(x.id == id)) } }
def State.requeue (s : State) (p : NetPkt) : State :=
  { s with xbar := { s.xbar with pkts := s.xbar.pkts.filter (fun x => !(x.id == p.id)) ++ [p] } }

/-- A packet reaches its target's port: what it does there happens after the port's time, which has a bound in the bounded
class only (R343), or by its latest tick. -/
def State.deliver (s : State) (t : Nat) (p : NetPkt) : State :=
  let d := (s.dropPkt p.id).drawFor p.kernel t (if p.bounded then p.tail else 0) (2 * p.flow)
  let due := t + d.1
  let at_ := if p.latest = 0 then due else Nat.min due (Nat.max t p.latest)
  { d.2 with sched := { d.2.sched with timers := insertTimer at_ p.rank p.event d.2.sched.timers } }

/-- A packet leaves its die: to its station, behind those that are there, or within one cluster to its target (R397). -/
def State.leaveDie (s : State) (t : Nat) (p : NetPkt) : State :=
  if p.src = p.dst || p.place = .light then s.deliver t p
  else s.requeue { p with place := .station (stationOf p.src), since := t, path := [] }

/-- A packet enters a router by a link when the lane has a buffer free, or when it must (R406). -/
def State.enters (s : State) (t router link : Nat) (p : NetPkt) : State :=
  if s.laneRoom router link p.bounded || p.kernel.isSome || (p.bounded && p.limit ≤ t) then
    s.putPkt { p with place := .router router, link := link, ready := t + 1 }
  else s

/-- A packet whose beats have crossed comes out at the target's home: at the channel's port, or at the routers of its die. -/
def State.comesOut (s : State) (t : Nat) (p : NetPkt) : State :=
  if !onMesh p.dst then s.deliver t p
  else
    let at_ := edgeOf (meshRouter (routerOf p.dst))
    s.enters t at_ 1001 { p with src := p.dst, path := meshPath at_ (routerOf p.dst), limit := t + 13 }

/-- One router hop of a packet at a router, or its way out of the die. -/
def State.hop (s : State) (t n : Nat) (p : NetPkt) : State :=
  match p.path with
  | [] => s.leaveDie t p
  | m :: r =>
    let d := s.drawFor p.kernel t 0 (2 * p.flow + 1)
    d.2.putPkt { p with place := .router m, link := n, path := r, ready := t + 1 + d.1 }

/-- Where a packet leaves its die: at its target port, or for the station. -/
def NetPkt.exit (p : NetPkt) : Nat := if p.src = p.dst then 1000 + p.flow % 8192 else 999

/-- The output that a packet needs at its router. -/
def NetPkt.output (p : NetPkt) (n : Nat) : Nat × Nat :=
  match p.path with
  | m :: _ => (n, m)
  | [] => (n, p.exit)

/-- Whether the next router of a packet has a buffer for it (R406). -/
def State.nextRoom (s : State) (n : Nat) (p : NetPkt) : Bool :=
  match p.path with
  | m :: _ => s.laneRoom m n p.bounded
  | [] => true

/-- Whether the ejection buffer of a packet's exit at a router is free (R407). -/
def State.ejectFree (s : State) (n : Nat) (p : NetPkt) : Bool :=
  !s.xbar.pkts.any (fun q => q.place == .eject n && q.exit == p.exit)

/-- The router at which a packet's route leaves its die. -/
def NetPkt.lastRouter (p : NetPkt) (here : Nat) : Nat := meshRouter ((p.path.getLast?).getD here)

/-- The shift of the ebb: every general packet on a die's cycle advances one buffer, leaves into the ejection buffer of its exit when it
is free, and those that stand at routers enter a buffer that is free there (R407). -/
def State.ebbMove (s : State) (t : Nat) : State :=
  let s1 := { s with xbar := { s.xbar with pkts := s.xbar.pkts.map (fun (p : NetPkt) => match p.place with
      | .cycle die buf => { p with place := .cycle die ((buf + 1) % ebbCycle.length) }
      | _ => p) } }
  s1.xbar.pkts.foldl (fun (st : State) (p : NetPkt) =>
    if p.bounded then st
    else match p.place with
      | .cycle die buf =>
        let n := ebbAt die buf
        if p.lastRouter n = n && st.ejectFree n p then st.putPkt { p with place := .eject n } else st
      | .router r =>
        let n := meshRouter r
        if p.ready ≤ t && p.lastRouter r = n && st.ejectFree n p then st.putPkt { p with place := .eject n }
        else
          match (List.range ebbCycle.length).find? (fun b => ebbAt (n / 72) b == n &&
              (p.kernel.isSome || !st.xbar.pkts.any (fun q => q.place == .cycle (n / 72) b))) with
          | some b => st.putPkt { p with place := .cycle (n / 72) b }
          | none => st
      | _ => st) s1

/-- The lanes stop: a bounded packet may lose the ticks once in its access (R408); one that has lost ticks before, and whose leg would
end in the stop, has left. -/
def State.laneStops (s : State) (t : Nat) (p : NetPkt) : State :=
  if !p.bounded then s
  else if p.stops then s.putPkt { p with limit := p.limit + 1, stops := !(ebbTick t == 65345 || ebbTick t == 65535) }
  else if p.limit ≤ t then s.leaveDie t p else s

/-- The routers in one tick: at every output one packet goes on when the next router has a buffer for it, the bounded lane first; a
bounded packet whose leg must end leaves its die whatever the contention (R343, R406); in the ebb the lanes stop, or the general packets
ride the preset cycles; an ejection buffer drains (R407). Packets of a planned kernel wait for no others' (R342). -/
def State.moveRouters (s : State) (t : Nat) : State :=
  let s0 := if ebbShift t then s.ebbMove t else s
  let lanes := s0.xbar.pkts.filter (·.bounded) ++ s0.xbar.pkts.filter (fun p => !p.bounded)
  (lanes.foldl (fun (x : List (Nat × Nat) × State) p =>
    match p.place with
    | .router n =>
      if ebbStop t then (x.1, x.2.laneStops t p)
      else if p.bounded && p.limit ≤ t then (x.1, x.2.leaveDie t p)
      else if !p.bounded && ebbShift t then x
      else if p.ready ≤ t && (p.kernel.isSome || (!x.1.contains (p.output n) && x.2.nextRoom n p)) then
        (if p.kernel.isSome then x.1 else p.output n :: x.1, x.2.hop t n p)
      else x
    | .cycle die buf =>
      if ebbShift t then x
      else
        let n := ebbAt die buf
        (x.1, x.2.putPkt { p with place := .router n, link := 1000, path := meshPath n ((p.path.getLast?).getD n) })
    | .eject _ => (x.1, if p.ready ≤ t then x.2.leaveDie t p else x.2)
    | _ => x) ([], s0)).2

/-- A beat of a packet leaves its station; after the last one the packet crosses (R398). -/
def State.sendBeat (s : State) (t : Nat) (p : NetPkt) : State :=
  if 1 < p.beats then s.putPkt { p with beats := p.beats - 1 }
  else
    let d := s.drawFor p.kernel t 5 (2 * p.flow)
    d.2.putPkt { p with beats := 0, place := .light, ready := t + 1 + d.1 }

/-- Packets at a station for a home channel, in the order in which they reached it. -/
def State.waitingAt (s : State) (st h : Nat) : List NetPkt :=
  s.xbar.pkts.filter (fun p => p.place == .station st && beamOf p.dst == h)

/-- The token passes on over stations that hold no general packet; one that holds such a packet seizes it in a general tick
(R401). -/
def State.tokenPasses (s : State) (t h : Nat) (mayTake : Bool) : Nat → TokenRec → TokenRec × State
  | 0, k => (k, s)
  | n + 1, k =>
    if t < k.due then (k, s)
    else match (s.waitingAt k.pos h).find? (fun p => !p.bounded && !s.isPlanned p) with
      | some p => if mayTake then ({ k with held := some p.id }, s) else (k, s)
      | none =>
        let d := s.draw (if k.pos = 11 then 6 else 2)
        d.2.tokenPasses t h mayTake n { k with pos := (k.pos + 1) % 12, due := t + d.1 }

/-- A home channel's token in one tick: seized, it lets the packet send a beat in every general tick that is free for it, and
after the last one it passes on (R401). -/
def State.tokenTick (s : State) (t h : Nat) (free : Bool) : State :=
  let k := match s.xbar.tokens.find? h with
    | some k => (k, s)
    | none => let d := s.draw 12; (({ pos := d.1, due := t, held := none } : TokenRec), d.2)
  let put := fun (x : TokenRec × State) => { x.2 with xbar := { x.2.xbar with tokens := x.2.xbar.tokens.put h x.1 } }
  match k.1.held.bind (fun id => k.2.xbar.pkts.find? (fun p => p.id == id && p.place == .station k.1.pos)) with
  | some p =>
    if !free then put k
    else
      let s1 := k.2.sendBeat t p
      if 1 < p.beats then put (k.1, s1)
      else
        let d := s1.draw (if k.1.pos = 11 then 6 else 2)
        put ({ pos := (k.1.pos + 1) % 12, due := t + 1 + d.1, held := none }, d.2)
  | none => put (k.2.tokenPasses t h free 12 { k.1 with held := none })

/-- A bounded packet that its station's bounded tick cannot carry within 48 ticks, since an older one takes it, or since it has beats
beside its first, goes in a general tick that nothing else uses (R400; log 104). -/
def State.urgent (s : State) (h : Nat) : Option NetPkt :=
  (List.range 12).foldl (fun (o : Option NetPkt) st =>
    let l := (s.waitingAt st h).filter (fun p => p.bounded && !s.isPlanned p)
    match l.find? (fun p => 1 < p.beats), l.drop 1, o with
    | some p, _, none => some p
    | none, p :: _, none => some p
    | _, p :: _, some q => if p.since < q.since then some p else o
    | _, _, _ => o) none

/-- A home channel in one tick, and whether it carries a beat (R398, R400, R401, R405): a claimed tick is for its kernel's oldest packet
or stays empty; a bounded tick is for the oldest bounded packet of its station. -/
def State.channelTick (s : State) (t h : Nat) : Bool × State :=
  match s.claimOf t h with
  | some (k, st) =>
    match (s.waitingAt st h).find? (fun p => p.kernel == some k) with
    | some p => (true, s.sendBeat t p)
    | none => (true, s)
  | none =>
    if t % 4 = 3 then
      match (s.waitingAt ((t - 3) / 4 % 12) h).find? (fun p => p.bounded && !s.isPlanned p) with
      | some p => (true, s.sendBeat t p)
      | none => (true, s)
    else match s.urgent h with
      | some p => (true, s.sendBeat t p)
      | none => (false, s)

/-- Whether general packets stand at a station for a home channel, outside the plans. -/
def State.tokenWanted (s : State) (h : Nat) : Bool :=
  s.xbar.pkts.any (fun p => beamOf p.dst == h && !p.bounded && !s.isPlanned p && match p.place with | .station _ => true | _ => false)

/-- The crossbar in one tick; a bounded packet leaves a station after 48 ticks at the latest (R400, log 104). -/
def State.moveStations (s : State) (t : Nat) : State :=
  let hs := (s.xbar.pkts.filterMap (fun p => match p.place with | .station _ => some (beamOf p.dst) | _ => none)).eraseDups
  let s1 := { s with xbar := { s.xbar with tokens := s.xbar.tokens.filter (fun e => s.tokenWanted e.1) } }
  let s2 := hs.foldl (fun st h =>
    let x := st.channelTick t h
    if x.2.tokenWanted h then x.2.tokenTick t h (!x.1) else x.2) s1
  s2.xbar.pkts.foldl (fun st p => match p.place with
    | .station _ => if p.bounded && p.since + 48 ≤ t && !st.isPlanned p then st.sendBeat t { p with beats := 1 } else st
    | _ => st) s2

/-- Ticks before its latest tick from which a packet goes on in the bounded class (R394; log 104). -/
def lastTicks : Nat := 84

/-- Packets that set out, come out of the light, or must be at their target now; a planned one keeps to its plan (R405). -/
def State.moveEnds (s : State) (t : Nat) : State :=
  s.xbar.pkts.foldl (fun st p =>
    if p.latest ≠ 0 && p.latest ≤ t && !st.isPlanned p then st.deliver t p
    else
      let q := if p.latest ≠ 0 && p.latest ≤ t + lastTicks && !p.bounded then
          { p with bounded := true, tail := 8, limit := t + firstLeg p.src p.dst } else p
      let st1 := if q.bounded = p.bounded then st else st.putPkt q
      match q.place with
      | .source =>
        if t < q.ready then st1
        else if onMesh q.src then st1.enters t (routerOf q.src) 1000 q
        else st1.leaveDie t q
      | .light => if q.ready ≤ t then st1.comesOut t q else st1
      | _ => st1) s

/-- The network in the tick that begins: only its packets, its tokens, the free values and the timers change. -/
def State.netTick (s : State) (t : Nat) : State :=
  if s.xbar.pkts.isEmpty then s
  else
    let x := ((s.moveEnds t).moveRouters t).moveStations t
    { s with xbar := x.xbar, sched := x.sched }

end Sys2Proof.Machine
end

