-- ==== Sys2Proof/Machine/Access.lean ====
section
/-! DEFINITION. How accesses travel: ports and packets, waits and retries, loads and stores, the store buffer and its
releases, deterministic atomics (spec 07, 14, 22). -/

namespace Sys2Proof.Machine

/-! ### Ports, worst cases and packets (R343, R399, R402) -/

/-- Where a lane is performed: at the issuer's own port, at a target port, or by a global request. -/
inductive Route where
  | own
  | port (n : Nat)
  | global
  deriving DecidableEq, Repr

/-- The route of an access: every part of an access lies in one core's local store or in one DRAM channel (R302, R315). -/
def routeOf (issuer : Nat) (locs : List ByteLoc) : Route :=
  match locs with
  | .store c _ :: _ => if c = issuer then .own else .port c
  | .dram a :: _ => .port (Config.cores + channelOf a)
  | .plane (b :: _) :: _ => .port (Config.cores + channelOf b.1)
  | .global _ _ :: _ => .global
  | _ => .own

def isAtomic : CellOp → Bool
  | .amo _ _ => true
  | .cas _ _ _ => true
  | _ => false

def isView (a : W64) : Bool := !bit a 63 && fld a 61 2 = 2

/-- Ticks of the worst case of R343 that are left for the target port itself in the bounded class. -/
def portTail (port : Nat) (view atomic : Bool) : Nat :=
  if port < Config.cores then 7 else if atomic then 445 else if view then 421 else 405

/-- A free number below a bound for a thread's traffic: one of a planned kernel repeats from run to run (R342). -/
def State.thDraw (s : State) (th : Thread) (bound salt : Nat) : Nat × State :=
  s.drawFor (s.plannedKernel th.kernel) s.ticks bound (2 ^ 50 + 4096 * tkey th.id + salt)

/-- Sends a packet of a thread to a target port (R399, R402). -/
def State.packet (s : State) (th : Thread) (port : Nat) (bounded : Bool) (bytes tail : Nat) (op : PortOp) : State :=
  s.portPacket th.id.core port bounded (s.plannedKernel th.kernel) bytes 0 tail (rankArrive (globalName s.ni.peer th.id)) true op

/-- Sends data, an acknowledgement or a refusal from a port back to a thread, on the home channel of the thread's cluster (R399); an access
that has met an ebb on its way meets none here (R408). -/
def State.sendBack (s : State) (th : Thread) (port : Nat) (bounded : Bool) (bytes since : Nat) (op : PortOp) : State :=
  let d := if port < Config.cores then (0, s) else s.thDraw th (if bounded then 4 else 0) 1
  d.2.portPacket port th.id.core bounded (s.plannedKernel th.kernel) bytes d.1 1 (rankArrive (globalName s.ni.peer th.id))
    (!ebbMet since s.ticks) op

/-- A thread's request sets out for its gateway, where the NI numbers it; it takes what it needs to place the thread elsewhere (R196,
R320, R399, R433); nomig asks for data. -/
def State.requestAs (s : State) (th : Thread) (a : W64) (op : CellOp) (limit : Nat) (pte : Bool)
    (det : Option (W64 × BitVec 32)) (store : Option Nat) (nomig bounded : Bool) : (Nat × Nat) × State :=
  let q := s.enqueueFor th a op limit pte det store nomig false bounded
  (q.1, q.2.packet th (gatePort (s.gate q.1.1)) (ringBounded th bounded) (match op with | .store n _ => n | _ => 8) 8 (.request q.1.1 q.1.2))

/-- A request of a thread. -/
def State.request (s : State) (th : Thread) (a : W64) (op : CellOp) (limit : Nat) (pte : Bool)
    (det : Option (W64 × BitVec 32)) (store : Option Nat) (bounded : Bool) : (Nat × Nat) × State :=
  s.requestAs th a op limit pte det store false bounded

/-- The largest number of cells that an access touches in one bank of a local store (R302). -/
def busiest (cells : List Nat) : Nat :=
  (List.range 8).foldl (fun n b => Nat.max n ((cells.filter (fun c => c % 8 == b)).length)) 0

/-- The cells of a core's local store that an access touches. -/
def storeCells (core : Nat) (locs : List (List ByteLoc)) : List Nat :=
  ((locs.flatMap id).filterMap (fun l => match l with
    | .store c o => if c = core then some (o / 8) else none
    | _ => none)).eraseDups

/-- The time in which an access to the issuer's own store completes: c + 4 to 2c + 4 ticks with c cells in its busiest bank,
or up to 10 for an atomic (R302, R343). -/
def State.ownDelay (s : State) (th : Thread) (locs : List (List ByteLoc)) (atomic : Bool) : Nat × State :=
  let c := Nat.max 1 (busiest (storeCells th.id.core locs))
  let d := s.thDraw th (if atomic then 6 else c + 1) 2
  (c + 4 + d.1, d.2)

/-- The ticks over which a port performs the parts of one access: one part at once; several at free ticks, in the bounded class
within 4 ticks for each further cell of the busiest bank of a local store, or 8 at a channel (R159, R288, R343). -/
def State.portSpan (s : State) (th : Thread) (port : Nat) (bounded : Bool) (locs : List (List ByteLoc)) : Nat × State :=
  if locs.length ≤ 1 then (0, s)
  else s.thDraw th (if !bounded then 0 else if port < Config.cores then 4 * (busiest (storeCells port locs) - 1) + 1 else 8) 3

/-! ### Sending a parked access -/

/-- The lanes of an access at a route that are not yet performed. -/
def Access.at (a : Access) (issuer : Nat) (r : Route) : List Lane :=
  a.lanes.filter (fun l => routeOf issuer l.locs == r && l.val.isNone)

/-- The distinct target ports of the lanes not yet performed. -/
def Access.ports (a : Access) (issuer : Nat) : List Nat :=
  ((a.lanes.filterMap (fun l => match routeOf issuer l.locs with
    | .port n => if l.val.isNone then some n else none
    | _ => none))).eraseDups

/-- Replaces lane i. -/
def Access.setLane (a : Access) (i : Nat) (l : Lane) : Access := { a with lanes := a.lanes.set i l }

/-- Whether an access is an AMO of a thread above DET0 (R188). -/
def detAmo (th : Thread) (a : Access) : Bool :=
  th.csr.detlvl ≠ 0 && a.lanes.any (fun l => match l.op with | .amo _ _ => true | _ => false)

/-- What a global access of a thread above DET0 carries: its stamp, and its program-order number, which counts the deterministic
AMOs issued before it (R188, R189, R396). -/
def Thread.detOf (th : Thread) (op : CellOp) : Option (W64 × BitVec 32) :=
  match op with
  | .amo _ _ => if th.csr.detlvl = 0 then none else some (th.csr.vtime, th.detCount - 1)
  | .load _ => if th.csr.detlvl = 0 then none else some (th.csr.vtime, th.detCount)
  | _ => none

/-- The bytes of a load of another package that the thread's own stores give, since they go there behind it (R173). -/
def Thread.coverOf (th : Thread) (l : Lane) : List (Option Byte) :=
  let late := th.sbuf.map (fun e => { e with parts := e.parts.filter (·.sent.isNone) })
  match l.op with
  | .load _ => l.locs.map (fun k => if forwarded late k then some (forwardByte late k 0) else none)
  | _ => []

/-- Hands the global lanes of an access to the NI (R433); the access of a thread that has migrated here is made here (R321). -/
def State.sendGlobals (s : State) (th : Thread) (a : Access) : Access × State :=
  (List.range a.lanes.length).foldl (fun (r : Access × State) i =>
    match r.1.lanes[i]? with
    | none => r
    | some l =>
      if routeOf th.id.core l.locs = .global && l.val.isNone && l.sent.isNone then
        let q := r.2.requestAs th l.addr l.op a.limit a.pte (th.detOf l.op) none th.landed a.bounded
        (r.1.setLane i { l with sent := some q.1, cover := th.coverOf l }, q.2)
      else r) (a, s)

/-- Sends an access of a thread on its way (R174): own-store lanes are performed within R302's time, lanes at other ports
travel as packets, global lanes as requests. The thread parks until every lane has its value. -/
def State.sendAccess (s : State) (t : Tid) (a : Access) : State :=
  match s.thread? t with
  | none => s
  | some th =>
    let g := s.sendGlobals th a
    let own := a.lanes.any (fun l => routeOf t.core l.locs == .own) || a.lanes.isEmpty
    let d := if own then g.2.ownDelay th (a.lanes.map (·.locs)) (a.lanes.any (fun l => isAtomic l.op)) else (0, g.2)
    let s1 := d.2.park t (.access { g.1 with ownDue := if own then s.ticks + d.1 else 0 })
    let s2 := (a.ports t.core).foldl (fun st p =>
      let mine := a.at t.core (.port p)
      st.packet th p a.bounded 8 (portTail p (mine.any (fun l => isView l.addr)) (mine.any (fun l => isAtomic l.op)))
        (.loadOf t 0)) s1
    if own then s2.after_ (if a.lanes.length = 1 then d.1 else 5) (rankArrive (globalName s.ni.peer t)) (.loadResponse ⟨t, t.core⟩) else s2

/-! ### Deterministic updates (R188, R189, R322, R323) -/

/-- The LWM that units and readers of a context see: the package's, or the domain's when it spans packages (R32, R323). -/
def Ctx.seenLwm (c : Ctx) : W64 := if c.spans then c.domLwm else c.lwm

/-- Whether the LWM lets an atomic unit hold back the load of a request still (R189). -/
def State.heldAtUnit (s : State) (r : GReq) : Bool :=
  match r.op, r.det, s.ctx? r.asid with
  | .load _, some d, some c => c.seenLwm.toNat < d.1.toNat
  | _, _, _ => false

/-- A publication of the LWM: the requests that it may let go have waited until now (R176, R189). -/
def State.noteHeld (s : State) : State :=
  { s with ni := { s.ni with out := s.ni.out.map (fun o => if s.heldAtUnit o.req then { o with heldTo := s.ticks } else o) } }

/-- Whether a load by a reader of a VTIME waits at the unit (R189): it parks when its cell has accepted updates that are not
applied, and once parked until the LWM is at least the reader's VTIME and no update stamped below it remains (R323). -/
def State.detHolds (s : State) (c : Ctx) (vtime : W64) (ps : List PLoc) (parked : Bool) : Bool :=
  let here := s.det.filter (fun e => ps.any (fun p => p.cells.contains (e.cell / 8)))
  (parked || !here.isEmpty) &&
    (c.seenLwm.toNat < vtime.toNat || here.any (fun e => e.stamp.toNat < vtime.toNat))

/-- Whether a load of a thread parks, or stays parked, at the unit (R189). -/
def State.detBlocks (s : State) (th : Thread) (ps : List PLoc) (parked : Bool) : Bool :=
  th.csr.detlvl ≠ 0 && s.detHolds (s.ctxOf th) th.csr.vtime ps parked

/-- The order of application: stamp, issuer name, program order (R188, R322). -/
def DetEntry.before (a b : DetEntry) : Bool :=
  a.stamp.toNat < b.stamp.toNat ||
    (a.stamp == b.stamp && (a.name < b.name || (a.name == b.name && a.prog.toNat < b.prog.toNat)))

/-- Inserts an update in the order of application. -/
def insertDet (e : DetEntry) : List DetEntry → List DetEntry
  | [] => [e]
  | x :: r => if e.before x then e :: x :: r else x :: insertDet e r

/-- Entries that a unit keeps in its buffer, and in its overflow area (R322). -/
def State.detCount (s : State) (ch : Nat) (spill : Bool) : Nat :=
  (s.det.filter (fun e => e.channel == ch && e.overflow == spill)).length

/-- The lowest update of a unit that may be applied: stamped below the LWM published to it (R188, R323). -/
def State.nextUpdate (s : State) (ch : Nat) : Option DetEntry :=
  (s.det.filter (fun e => e.channel == ch)).find? (fun e =>
    match s.ctx? e.asid with
    | some c => e.stamp.toNat < c.seenLwm.toNat
    | none => false)

/-- A unit with an update to apply does so as soon as two ticks have passed since its latest application, and in no tick whose
applications are over (R323). -/
def State.armUnit (s : State) (ch first : Nat) : State :=
  if (s.nextUpdate ch).isNone || s.sched.timers.any (fun t => t.2.2 == .detAtomicApply ch) ||
      s.sched.agenda.contains (.detAtomicApply ch) then s
  else s.sched_ (Nat.max first (s.detLast.getD ch 0 + 2)) rankPublish (.detAtomicApply ch)

/-- Accepts an update into the buffer or the overflow area, or refuses it (R322). -/
def State.detAccept (s : State) (asid key : Nat) (op : AmoOp) (b stamp : W64) (name : Nat) (prog : BitVec 32) :
    Option State :=
  let ch := channelOf key
  if 16 ≤ s.detCount ch false && 65536 ≤ s.detCount ch true then none
  else
    let f := s.fresh
    let e : DetEntry := { channel := ch, asid := asid, cell := key, op := op, b := b, stamp := stamp, name := name,
                          prog := prog, order := f.1, overflow := 16 ≤ s.detCount ch false }
    some (({ f.2 with det := insertDet e f.2.det }).armUnit ch (s.ticks + 1))

/-! ### Ending a parked access -/

/-- Places the value of a lane in a vector pair. -/
def depositLane (th : Thread) (d : VReg) (l : Lane) : Thread :=
  let r := d + BitVec.ofNat 5 (l.bit / 512)
  let w := 8 * opSize l.op
  let sh := l.bit % 512
  let v : V512 := BitVec.ofNat 512 ((l.val.getD 0).toNat % 2 ^ w * 2 ^ sh)
  th.setV r (blend (BitVec.ofNat 512 ((2 ^ w - 1) * 2 ^ sh)) v (th.getV r))

/-- Whether some part of a lane met poison: the whole lane then reads as zero (R159, R174). -/
def Access.laneBad (a : Access) (n : Nat) : Bool := a.lanes.any (fun l => l.lane == n && !l.pois.isEmpty)

/-- The parts of an access as they are written: those of a poisoned lane are zero. -/
def Access.results (a : Access) : List Lane :=
  a.lanes.map (fun l => if a.laneBad l.lane then { l with val := some 0 } else l)

/-- The value of a scalar access, put together from its parts. -/
def Access.whole (a : Access) : W64 :=
  a.results.foldl (fun w l => w ||| at_ ((l.val.getD 0).toNat % 2 ^ (8 * opSize l.op)) l.bit) 0

/-- Writes the destination of an access from its lanes, behind the writes that were pending (R100, R102). -/
def Access.write (a : Access) (th : Thread) : Thread :=
  match a.dst with
  | .x d size signed => th.landRegs.setX d (extend size signed a.whole)
  | .v d => a.results.foldl (fun th l => depositLane th d l) th.landRegs
  | .spawn _ => th

/-- TVAL of POISON: the address, or for a vector load the address of the cell (R159, R174); of a lane in view space, the view address of the
lane's part rounded down to 8 (log 128). -/
def Access.poisonVal (a : Access) (l : Lane) : W64 :=
  match a.dst with
  | .x _ _ _ => l.addr - BitVec.ofNat 64 (l.bit / 8)
  | .v _ => l.addr &&& ~~~7
  | .spawn _ => l.addr

/-- The destination is written and the thread wakes; a SPAWN whose descriptor has landed goes on to its checks (R200). -/
def State.accessDone (s : State) (t : Tid) (a : Access) : State :=
  match a.dst with
  | .spawn d =>
    (s.modThread t (fun th => { th with run := .parked (.spawn d (a.results.map (fun l => l.val.getD 0)) false) })).sched_ s.ticks
      (rankArrive (globalName s.ni.peer t)) (.spawnPlacement t)
  | _ => (s.modThread t a.write).wake t

/-- Ends an access whose lanes all have their values: a lane without a response traps, then poison, else the destination
is written and the thread wakes (R34, R159, R174, R176). A vector load under PTE sets FCSR.POISON before it traps; a scalar
load traps instead. -/
def State.finishAccess (s : State) (t : Tid) (a : Access) : State :=
  match s.thread? t with
  | none => s
  | some th =>
    match a.lanes.find? (·.fail.isSome) with
    | some l => s.trapParked t (l.fail.getD .nopeer) l.addr
    | none =>
      let s1 := s.count th.asid 8 (a.lanes.flatMap (·.pois)).eraseDups.length
      match a.lanes.find? (fun l => !l.pois.isEmpty) with
      | some l =>
        if a.pte then
          (match a.dst with | .v _ => s1.setPoison t | _ => s1).trapParked t .poison (a.poisonVal l)
        else (s1.setPoison t).accessDone t a
      | none => s1.accessDone t a

/-- Ends the access when every lane has its value and its data is back. -/
def State.settle (s : State) (t : Tid) (a : Access) : State :=
  if a.lanes.all (fun l => l.val.isSome && l.back) then s.finishAccess t a else s

/-! ### Waiting accesses (R181, R182, R304, R324) -/

/-- Entries that a place can hold (R182). -/
def placeCapacity (place : Nat) : Nat := if place < Config.cores then 256 else 64

/-- Enters an access in the wait or retry list of its cell's place, unless the list is full. -/
def State.enterWait (s : State) (locs : List ByteLoc) (issuer : Nat) (op : CellOp) (limit count asid : Nat) (own : Option Tid)
    (remote : Option GReq) : Option (Nat × State) :=
  let place := placeOf (keyOfLocs (locs.map (s.ploc issuer)))
  if placeCapacity place ≤ (s.waits.filter (fun w => w.place == place)).length then none
  else
    let f := s.fresh
    let e : FeEntry := { id := f.1, place := place, locs := locs, issuer := issuer, op := op, limit := limit, count := count,
                         last := s.ticks, asid := asid, local_ := own, remote := remote }
    some (f.1, ({ f.2 with waits := f.2.waits ++ [e] }).after_ 64 rankFe (.feReexamine f.1))

/-- A parked thread's instruction is withdrawn: it issues again. -/
def State.takeBack (s : State) (th : Thread) : State :=
  s.modThread th.id (fun u => u.withdraw (s.codeWord th.id.core th.insn))

/-- A wait is withdrawn at the place that keeps it: an overrun that overtook it has TEPC name its instruction; else the thread stops for
the pre-emption (R219, step 5; R354). -/
def State.cameBack (s : State) (t : Tid) : State :=
  match s.thread? t with
  | none => s
  | some th =>
    if th.ovr then
      s.putThread { th with run := .ready, ovr := false, csr := { th.csr with tepc := at_ (th.insn / 4 % 2 ^ 16) 2 } }
    else
      let s1 := s.takeBack th
      if (s.ctxOf th).phase = .stopping then s1.modThread t (fun u => { u with run := .stopped }) else s1

/-- Whether a wait of a thread is withdrawn as soon as it begins: an overrun has overtaken the access, or its context is being
pre-empted (R219, R354). -/
def State.withdraws (s : State) (th : Thread) : Bool :=
  th.ovr || ((s.ctxOf th).phase = .stopping && th.depth = 0)

/-- A full/empty access is refused: at the own store it is retried 64 ticks later; from another place the refusal travels back first
(R182, R399). -/
def State.feRefuses (s : State) (th : Thread) (a : Access) (count : Nat) : State :=
  let s1 := s.park th.id (.feRefused a count)
  match a.lanes.head?.map (fun l => routeOf th.id.core l.locs) with
  | some (.port n) => s1.sendBack th n a.bounded 0 th.issuedAt (.refused th.id)
  | _ => s1.after_ 64 (rankArrive (globalName s.ni.peer th.id)) (.feRetry th.id)

/-- A full/empty access of a thread that fails its first examination waits, or is refused and retried (R181, R182); one that is to be
withdrawn goes back to its thread. -/
def State.feFails (s : State) (t : Tid) (a : Access) (l : Lane) (count : Nat) : State :=
  match s.thread? t with
  | none => s
  | some th =>
    if s.withdraws th then (match routeOf t.core l.locs with | .own => s.cameBack t | _ => s.feRefuses th a count)
    else match s.enterWait l.locs t.core l.op a.limit count th.asid (some t) none with
    | some (id, s1) => s1.park t (.feWait a id)
    | none => s.feRefuses th a count

/-- The poisoned cells of an access. -/
def State.poisonOf (s : State) (ps : List PLoc) : List Nat := (ps.flatMap PLoc.cells).eraseDups.filter s.mem.poisoned

/-- Performs lane i of a thread's access at its place: the value is kept in the lane, a failed condition waits. -/
def State.performLane (s : State) (t : Tid) (a : Access) (i : Nat) : Access × State :=
  match a.lanes[i]?, s.thread? t with
  | some l, some th =>
    let ps := l.locs.map (s.ploc t.core)
    match l.op with
    | .load _ =>
      if s.detBlocks th ps l.atUnit then (a.setLane i { l with atUnit := true }, s)
      else
        let r := s.loadFwd th l.locs
        (a.setLane i { l with val := some r.1, pois := r.2, atUnit := false }, s.mayCorrect th.asid (keyOfLocs ps))
    | op =>
      match s.performAt ps op a.pte with
      | (.value v p, s1) =>
        (a.setLane i { l with val := some v, pois := if p then s.poisonOf ps else [] }, s1.mayCorrect th.asid (keyOfLocs ps))
      | (.fails, s1) => (a, s1)
  | _, _ => (a, s)

/-- Performs lanes of a thread's access that lie at a route: all of them, or each if a free choice says so (R159, R288). -/
def State.performRoute (s : State) (th : Thread) (a : Access) (r : Route) (every : Bool) : Access × State :=
  (List.range a.lanes.length).foldl (fun (x : Access × State) i =>
    match x.1.lanes[i]? with
    | some l =>
      if routeOf th.id.core l.locs = r && l.val.isNone && !l.atUnit then
        let d := if every then (1, x.2) else x.2.thDraw th 2 (16 + 8 * i)
        if d.1 = 1 then d.2.performLane th.id x.1 i else (x.1, d.2)
      else x
    | none => x) (a, s)

/-- Whether an operation waits on an FE condition. -/
def isWaiting : CellOp → Bool
  | .waitFull => true
  | .take => true
  | .putEmpty _ => true
  | _ => false

/-- Lanes at a route that are still to be performed there in this and the next ticks. -/
def Access.open_ (a : Access) (issuer : Nat) (r : Route) : Bool :=
  a.lanes.any (fun l => routeOf issuer l.locs == r && l.val.isNone && !l.atUnit)

/-- A lane whose data has come back, by route. -/
def Access.markBack (a : Access) (issuer : Nat) (r : Route) : Access :=
  { a with lanes := a.lanes.map (fun l => if routeOf issuer l.locs = r && l.val.isSome then { l with back := true } else l) }

/-- When every lane of an access at a port is performed, its data goes back (R399). -/
def State.dataBack (s : State) (th : Thread) (a : Access) (port : Nat) : State :=
  let mine := a.lanes.filter (fun l => routeOf th.id.core l.locs == .port port)
  if mine.all (·.val.isSome) then s.sendBack th port a.bounded ((mine.map (fun l => opSize l.op)).sum) th.issuedAt (.data ⟨th.id, port⟩) else s

/-- Keeps the lanes of the access that a thread waits for. -/
def State.keepAccess (s : State) (t : Tid) (a : Access) : State :=
  s.modThread t (fun th => { th with run := .parked (.access a) })

/-- The lanes of a thread's access at a port are performed, over the ticks until due (R159, R180, R402): the tick until which
the port works on, when some are left. A full/empty access whose condition fails waits at the place. When all have values the
data goes back. -/
def State.portLoad (s : State) (th : Thread) (a : Access) (port due : Nat) : Option Nat × State :=
  let t := th.id
  let d := if due ≠ 0 then (due - s.ticks, s) else s.portSpan th port a.bounded ((a.at t.core (.port port)).map (·.locs))
  let x := d.2.performRoute th a (.port port) (d.1 = 0)
  match x.1.lanes with
  | [l] =>
    if l.val.isNone && isWaiting l.op then (none, x.2.feFails t x.1 l 0)
    else (none, (x.2.keepAccess t x.1).dataBack th x.1 port)
  | _ =>
    if x.1.open_ t.core (.port port) && d.1 ≠ 0 then (some (s.ticks + d.1), x.2.keepAccess t x.1)
    else (none, (x.2.keepAccess t x.1).dataBack th x.1 port)

/-- The lanes of a thread's access in its own store are performed, over the ticks of R302. -/
def State.ownLoad (s : State) (th : Thread) (a : Access) : State :=
  let t := th.id
  let x := s.performRoute th a .own (a.ownDue ≤ s.ticks || a.lanes.length = 1)
  match x.1.lanes with
  | [l] =>
    if l.val.isNone && isWaiting l.op then x.2.feFails t x.1 l 0
    else
      let a1 := x.1.markBack t.core .own
      (x.2.keepAccess t a1).settle t a1
  | _ =>
    let a1 := x.1.markBack t.core .own
    if a1.open_ t.core .own then
      (x.2.keepAccess t a1).after_ 1 (rankArrive (globalName s.ni.peer t)) (.loadResponse ⟨t, t.core⟩)
    else (x.2.keepAccess t a1).settle t a1

/-- Loads of this package's threads that wait for the LWM try again (R189, R323). -/
def State.retryDetHere (s : State) : State :=
  (s.threads.map (·.2)).foldl (fun st th =>
    match th.run with
    | .parked (.access a) =>
      if a.lanes.any (fun l => l.val.isNone && l.atUnit) then
        let x := (List.range a.lanes.length).foldl (fun (x : Access × State) i =>
          match x.1.lanes[i]? with
          | some l => if l.val.isNone && l.atUnit
              then x.2.performLane th.id x.1 i else x
          | none => x) (a, st)
        let held := fun (b : Access) (p : Nat) => b.lanes.any (fun l => routeOf th.id.core l.locs == .port p && l.val.isNone)
        (a.ports th.id.core).foldl (fun st p =>
          if held a p && !held x.1 p then st.dataBack th x.1 p else st) (x.2.keepAccess th.id x.1)
      else st
    | _ => st) s

/-- The answer of a request that its target's NI decides (R433, R436). -/
def State.answerReq (s : State) (r : GReq) (res : GResult) : State :=
  (s.recordReq r.src r.seq (some res)).respond r.src r.seq r.asid r.tid res r.bounded

/-- The answer of a request that its channel has performed is recorded, and crosses to the gateway of its way back (R399, R433, R436). -/
def State.chanAnswer (s : State) (r : GReq) (key : Nat) (res : GResult) : State :=
  (s.recordAnswer r.src r.seq res).portPacket (Config.cores + channelOf key) (gatePort (s.gate r.src)) r.bounded (s.reqKernel r) 8 0 8
    (rankArrive (globalName r.src r.tid)) (!ebbMet r.ts s.ticks) (.answer r.src r.seq r.asid r.tid res r.bounded)

/-- The bytes of a global access at its physical address. -/
def reqLocs (r : GReq) (key : Nat) : List PLoc := (List.range (opSize r.op)).map (fun i => .byte (key + i))

/-- What a load by a global request reads: a load of a thread of this package sees the thread's own stores (R173, R287). -/
def State.readReq (s : State) (r : GReq) (key : Nat) : GResult × State :=
  let res := match (if r.src = s.ni.peer then s.thread? r.tid else none) with
    | some th =>
      let x := s.loadFwd th ((List.range (opSize r.op)).map (fun i => .dram (key + i)))
      if x.2.isEmpty then GResult.value x.1 else .poisoned
    | none =>
      let ps := reqLocs r key
      if s.mem.anyPoison ps then .poisoned else .value (s.mem.readPs ps)
  (res, s.mayCorrect r.asid key)

/-- Loads that wait for the LWM try again: those of threads, and those of global requests (R189, R323). -/
def State.retryDet (s : State) : State :=
  s.ni.atUnit.foldl (fun st e =>
    let c := (st.ctx? e.1.asid).getD Ctx.blank
    let v := match e.1.det with | some d => d.1 | none => 0
    if st.detHolds c v (reqLocs e.1 e.2) true then st
    else
      let st1 := { st with ni := { st.ni with atUnit := st.ni.atUnit.filter (fun x => !(x.1 == e.1)) } }
      let x := st1.readReq e.1 e.2
      x.2.chanAnswer e.1 e.2 x.1) s.retryDetHere

/-! ### Stores and the store buffer (R173, R191, R218, R297) -/

/-- The depth of the outermost open region with HOLD, counted from 1 at the bottom of the stack (R218). -/
def Thread.holdDepth (th : Thread) : Option Nat :=
  (th.regions.reverse.findIdx? (·.hold)).map (· + 1)

/-- Whether two parts of stores share a byte. -/
def StorePart.overlaps (p q : StorePart) : Bool := p.locs.any (fun l => q.locs.any (fun k => l.overlaps k))

/-- Whether two parts of a thread's stores share a byte, whatever its names (R284). -/
def State.partsMeet (s : State) (th : Thread) (p q : StorePart) : Bool :=
  let name := fun (x : StorePart) => { x with locs := x.locs.map (s.oneName (s.ctxOf th)) }
  (name p).overlaps (name q)

/-- Whether a part still to be performed stands in the way of a later one of its thread: they share a byte, and no port and no
number keeps them in order (R158, R287, R402, R434). -/
def State.partBlocks (s : State) (th : Thread) (p q : StorePart) : Bool :=
  !p.done && s.partsMeet th p q && !(p.out && routeOf th.id.core p.locs == routeOf th.id.core q.locs)

/-- An entry whose parts that may set out now do so: each behind those before it that stand in its way (R158, R159). -/
def State.settingOut (s : State) (th : Thread) (e : StoreEntry) : StoreEntry :=
  { e with sent := true, parts := e.parts.foldl (fun l p => l ++ [{ p with out := p.out || !l.any (fun q => s.partBlocks th q p) }]) [] }

/-- Whether a started matrix instruction has still to read local store (R251). -/
def InFlight.readsLeft (f : InFlight) : Bool :=
  match f.arrs with
  | a :: _ => match a.fn with
    | .mac | .mul => f.kdone + f.opnds.length < fld a.xc 3 10
    | .acld => f.done < 1024
    | .drain => fld a.xa 6 2 ≠ 0 && f.done < 1024
    | _ => false
  | [] => false

/-- Whether a matrix instruction that a thread issued before a number has still to read: its reads are accesses of the thread, and a
release waits for them (R290, R378). -/
def State.mxReads (s : State) (t : Tid) (id : Nat) : Bool :=
  (s.row (t.core / 4)).queue.any (fun f => f.tids.contains t && f.id < id && f.readsLeft)

/-- Whether an entry may leave the buffer, behind the entries before it (R191, R287, R378). -/
def State.maySend (s : State) (th : Thread) (e : StoreEntry) (before : List StoreEntry) : Bool :=
  let open_ := before.filter (fun b => b.held.isNone)
  if e.release then open_.isEmpty && !s.mxReads th.id e.id
  else !open_.any (fun b => b.parts.any (fun p => e.parts.any (fun q => s.partBlocks th p q)))

/-- The bytes of the data of parts of a store. -/
def partsBytes (ps : List StorePart) : Nat := (ps.map (fun p => opSize p.op)).sum

/-- The ports of parts of a store. -/
def portsOf (issuer : Nat) (ps : List StorePart) : List Nat :=
  (ps.filterMap (fun p => match routeOf issuer p.locs with | .port n => some n | _ => none)).eraseDups

/-- Replaces an entry of a thread's store buffer. -/
def Thread.setEntry (th : Thread) (e : StoreEntry) : Thread :=
  { th with sbuf := th.sbuf.map (fun x => if x.id = e.id then e else x) }

/-- Sends the parts of an entry that may set out now: to the own store, to other ports and to other packages (R173). -/
def State.sendEntry (s : State) (t : Tid) (e : StoreEntry) : State :=
  match s.thread? t with
  | none => s
  | some th =>
    let e1 := s.settingOut th e
    let now := ((e.parts.zip e1.parts).filter (fun p => !p.1.out && p.2.out)).map (·.1)
    let own := now.any (fun p => routeOf t.core p.locs == .own) || e.parts.isEmpty
    let d := if own then s.ownDelay th (now.map (·.locs)) false else (0, s)
    let g := (List.range e.parts.length).foldl (fun (r : StoreEntry × State) i =>
      match r.1.parts[i]? with
      | none => r
      | some p =>
        if routeOf t.core p.locs = .global && p.out && p.sent.isNone then
          let q := r.2.request th p.addr p.op 0 false none (some e.id) e.bounded
          ({ r.1 with parts := r.1.parts.set i { p with sent := some q.1 } }, q.2)
        else r) ({ e1 with born := if e.sent then e.born else s.ticks,
                           ownDue := if own then Nat.max e.ownDue (s.ticks + d.1) else e.ownDue }, d.2)
    let s1 := g.2.modThread t (·.setEntry g.1)
    let s2 := (portsOf t.core now).foldl (fun st n =>
      let mine := now.filter (fun p => routeOf t.core p.locs == .port n)
      st.packet th n e.bounded (partsBytes mine) (portTail n (mine.any (fun p => isView p.addr)) false) (.storeOf t e.id 0)) s1
    if own then s2.after_ (if e.parts.length = 1 then d.1 else 5) (rankArrive (globalName s.ni.peer t)) (.storePerformed ⟨t, t.core⟩ e.id)
    else s2

/-- Sends every entry that may leave now, in program order (R173, R191). -/
def State.sendStores (s : State) (t : Tid) : State :=
  match s.thread? t with
  | none => s
  | some th =>
    (go s th [] th.sbuf).foldl (fun st e => st.sendEntry t e) s
where
  go (s : State) (th : Thread) : List StoreEntry → List StoreEntry → List StoreEntry
    | _, [] => []
    | before, e :: r =>
      if !e.sent && e.held.isNone && s.maySend th e before then e :: go s th (before ++ [s.settingOut th e]) r
      else go s th (before ++ [e]) r

/-- Adds an entry to the store buffer and sends it unless it is held (R173, R218). -/
def State.addStore (s : State) (t : Tid) (e : StoreEntry) : State :=
  (s.modThread t (fun th => { th with sbuf := th.sbuf ++ [e] })).sendStores t

/-- A store takes one entry at issue; with 32 in use the thread parks until one is freed (R173). -/
def State.store (s : State) (t : Tid) (parts : List StorePart) (release : Bool) : State :=
  match s.thread? t with
  | none => s
  | some th =>
    let f := s.fresh
    let e : StoreEntry := { id := f.1, parts := parts, release := release, held := th.holdDepth, rel := false, sent := false,
                            ownDue := 0, bounded := 0 < th.depth, born := s.ticks }
    if 32 ≤ th.sbuf.length then f.2.park t (.storeFull e) else f.2.addStore t e

/-- Performs part i of an entry. -/
def State.performPart (s : State) (t : Tid) (e : StoreEntry) (i : Nat) : StoreEntry × State :=
  match e.parts[i]? with
  | some p =>
    let ps := p.locs.map (s.ploc t.core)
    ({ e with parts := e.parts.set i { p with done := true } },
      ((s.performAt ps p.op false).2).mayCorrect (((s.thread? t).map (·.asid)).getD 0) (keyOfLocs ps))
  | none => (e, s)

/-- The parts of entries in the own store, newest first, that come before some parts: they have set out and share a byte with one of
these, or with one that comes before these. They are listed in program order, by entry and place. -/
def partsBefore (issuer : Nat) (need : List StorePart) (ps : List (Nat × Nat × StorePart)) : List (Nat × Nat) :=
  (ps.foldl (fun (x : List (Nat × Nat) × List StorePart) q =>
    if q.2.2.out && !q.2.2.done && routeOf issuer q.2.2.locs == .own && x.2.any q.2.2.overlaps then
      ((q.1, q.2.1) :: x.1, q.2.2 :: x.2)
    else x) ([], need)).1

/-- The parts of a thread's earlier stores in its own store that come before a part are performed first (R287). -/
def State.performEarlier (s : State) (t : Tid) (id : Nat) (p : StorePart) : State :=
  match s.thread? t with
  | none => s
  | some th =>
    let all := (th.sbuf.filter (fun b => b.id < id)).flatMap (fun b =>
      (b.parts.zip (List.range b.parts.length)).map (fun q => (b.id, q.2, q.1)))
    (partsBefore t.core [p] all.reverse).foldl (fun st q =>
      match (st.thread? t).bind (fun u => u.sbuf.find? (fun b => b.id == q.1)) with
      | some b => let x := st.performPart t b q.2; x.2.modThread t (·.setEntry x.1)
      | none => st) s

/-- Performs parts of an entry that lie at a route: all of them, or each if a free choice says so. Parts that share a byte are
performed in order (R158, R159, R287). -/
def State.performParts (s : State) (th : Thread) (e : StoreEntry) (r : Route) (every : Bool) : StoreEntry × State :=
  let t := th.id
  (List.range e.parts.length).foldl (fun (x : StoreEntry × State) i =>
    match x.1.parts[i]? with
    | some p =>
      if routeOf t.core p.locs = r && p.out && !p.done && !(x.1.parts.take i).any (fun q => !q.done && q.overlaps p) then
        let d := if every then (1, x.2) else x.2.thDraw th 2 (20 + 8 * i)
        if d.1 = 1 then (if r = .own then d.2.performEarlier t e.id p else d.2).performPart t x.1 i else (x.1, d.2)
      else x
    | none => x) (e, s)

/-- Parts that have set out for a route and are still to be performed. -/
def StoreEntry.open_ (e : StoreEntry) (issuer : Nat) (r : Route) : Bool :=
  e.parts.any (fun p => routeOf issuer p.locs == r && p.out && !p.done)

/-- The parts of an entry at a route are acknowledged. -/
def StoreEntry.ack (e : StoreEntry) (issuer : Nat) (r : Route) : StoreEntry :=
  { e with parts := e.parts.map (fun p => if routeOf issuer p.locs = r && p.done then { p with acked := true } else p) }

/-- The parts of a buffered store at a port are performed, over the ticks until due: the tick until which the port works on,
when some are left; when none is, the acknowledgement of one beat goes back (R173, R399, R402). -/
def State.portStore (s : State) (th : Thread) (e : StoreEntry) (port due : Nat) : Option Nat × State :=
  let t := th.id
  let mine := e.parts.filter (fun p => routeOf t.core p.locs == .port port && p.out && !p.done)
  let d := if due ≠ 0 then (due - s.ticks, s) else s.portSpan th port e.bounded (mine.map (·.locs))
  let x := d.2.performParts th e (.port port) (d.1 = 0)
  let s1 := x.2.modThread t (·.setEntry x.1)
  if x.1.open_ t.core (.port port) && d.1 ≠ 0 then (some (s.ticks + d.1), s1)
  else (none, s1.sendBack th port e.bounded 0 e.born (.ack ⟨t, port⟩ e.id))

/-- The entry of an identifier, with the entries before it. -/
def findEntry (id : Nat) : List StoreEntry → List StoreEntry → Option (List StoreEntry × StoreEntry)
  | _, [] => none
  | before, e :: r => if e.id = id then some (before, e) else findEntry id (before ++ [e]) r

/-- Frees an entry whose parts are all performed (R173), and sends what waited for it. -/
def State.freeEntry (s : State) (t : Tid) (id : Nat) : State :=
  (s.modThread t (fun th => { th with sbuf := th.sbuf.filter (fun e => !(e.id == id)) })).sendStores t

/-- Whether a parking operation is a release, whatever it names: it follows every earlier store (R179, R290). -/
def isRelease : CellOp → Bool
  | .putEmpty _ => true
  | _ => false

/-- A global store, part i of an entry, performed zero times: it is reported, and the later stores ordered after it are
discarded and counted, among them one that waits for an entry and a parked PUTEMPTY (R176, R297). -/
def State.loseStore (s : State) (t : Tid) (id i : Nat) (addr : W64) : State :=
  match s.thread? t with
  | none => s
  | some th =>
    match findEntry id [] th.sbuf with
    | none => s
    | some (before, _) =>
      let later := th.sbuf.drop (before.length + 1)
      let gone := later.filter (fun e => e.release && !e.sent)
      let parked := match th.run with
        | .parked (.storeFull e) => e.release && e.held.isNone
        | .parked (.ownStores a) => a.lanes.any (fun l => isRelease l.op)
        | _ => false
      let s1 := ((s.modThread t (fun th => { th with
        sbuf := th.sbuf.filter (fun e => !gone.any (fun g => g.id == e.id)) })).noteLost t (id, i, addr)).count th.asid 12
          (1 + gone.length + (if parked then 1 else 0))
      if parked then s1.wake t else s1

/-- Marks the part of an entry that a global request performed (R433). -/
def markPart (e : StoreEntry) (key : Nat × Nat) : StoreEntry :=
  { e with parts := e.parts.map (fun p => if p.sent = some key then { p with done := true, acked := true } else p) }

end Sys2Proof.Machine
end

