-- ==== Sys2Proof/Machine/Place.lean ====
section
/-! DEFINITION. Error records, partitions, the placement of threads, their creation and their end, and the retirement of
kernels (spec 01 R45, R46; 08 R201; 15 R333, R337; 16 R352; 26 R466). -/

namespace Sys2Proof.Machine

/-! ### Error records (R352) -/

/-- Writes bytes of host memory. -/
def hostWrite (m : Tab Byte) (a : Nat) : List Byte → Tab Byte
  | [] => m
  | b :: r => hostWrite (m.setD a b 0) (a + 1) r

/-- Reads bytes of host memory. -/
def hostRead (m : Tab Byte) (a n : Nat) : List Byte := (List.range n).map (fun i => m.getD (a + i) 0)

/-- An error record before its sequence number is given. -/
structure ErrRec where
  kind    : Nat
  code    : Nat
  first   : Bool
  tag     : Nat
  ticks   : Nat
  thread  : Option Tid
  asid    : Nat
  origin  : Nat
  epc     : Nat
  lid     : Nat
  val     : W64
  tcause  : W64
  head    : Nat

/-- The eight words of a record (R352). -/
def ErrRec.words (r : ErrRec) (peer seq : Nat) : List W64 :=
  [ at_ r.kind 0 ||| at_ r.code 8 ||| atB r.first 16 ||| at_ r.tag 32,
    at_ seq 0,
    at_ r.ticks 0,
    (match r.thread with | some t => threadReg peer t | none => at_ 1 30) ||| at_ r.asid 32 ||| at_ r.origin 48,
    (match r.thread with | some _ => at_ (r.epc / 4 % 2 ^ 16) 2 | none => 0) ||| at_ r.lid 32,
    r.val,
    r.tcause &&& 0x1FF,
    at_ r.head 0 ]

/-- Bytes of a list of words. -/
def wordBytes (ws : List W64) : List Byte := ws.flatMap (fun w => leBytes 8 w.toNat)

/-- Writes an error record into a queue's ring and counts it (R326, R352). -/
def State.errorRecord (s : State) (q : Nat) (r : ErrRec) : State :=
  let qr := s.queue q
  let seq := qr.recSeq + 1
  let s1 := s.putQueue q { qr with recSeq := seq, errs := qr.errs + 1 }
  { s1 with host := { s1.host with
      mem := hostWrite s1.host.mem (qr.errBase.toNat + (seq - 1) % 64 * 64) (wordBytes (r.words s.ni.peer seq)) } }

/-! ### Partitions (R466) -/

/-- The partition record of a context: that to which its virtual function is bound. -/
def State.partOf (s : State) (vf : Nat) : Option (List W64) :=
  match (s.host.vfs.getD vf VfRec.reset).bound with
  | some p => s.host.parts.find? p
  | none => none

def partWord (r : List W64) (n : Nat) : W64 := r.getD n 0
def partAsidBase (r : List W64) : Nat := fld (partWord r 0) 16 16
def partAsidCount (r : List W64) : Nat := fld (partWord r 0) 32 16 + 1
def partDramBase (r : List W64) : Nat := fld (partWord r 1) 0 9
def partDramLast (r : List W64) : Nat := fld (partWord r 1) 16 9
def partHasQueue (r : List W64) (q : Nat) : Bool := bit (partWord r 2) q
def partHasCluster (r : List W64) (c : Nat) : Bool := bit (partWord r (3 + c / 64)) (c % 64)
def partHasAsid (r : List W64) (a : Nat) : Bool := partAsidBase r ≤ a && a < partAsidBase r + partAsidCount r
/-- Whether bytes a to a + n − 1 lie in the partition's DRAM share. -/
def partHasDram (r : List W64) (a n : Nat) : Bool :=
  partDramBase r * 2 ^ 30 ≤ a && a + n ≤ (partDramLast r + 1) * 2 ^ 30

/-- Whether a core lies in a context's partition. -/
def State.inPartition (s : State) (c : Ctx) (core : Nat) : Bool :=
  core < Config.cores &&
    match s.partOf c.vf with
    | some r => partHasCluster r (clusterOf core)
    | none => false

/-! ### Occupancy and placement (R333) -/

/-- What a slot of a core takes: slot, XBASE, XSIZE, VBASE, VSIZE, WHEEL. -/
structure Occ where
  slot  : Nat
  xbase : Nat
  xsize : Nat
  vbase : Nat
  vsize : Nat
  wheel : W64
  deriving DecidableEq, Repr

/-- The slots taken on a core: its threads, and the threads of dispatched launches that are still to be created. -/
def State.occupied (s : State) (core : Nat) : List Occ :=
  ((s.threadsWhere (fun t => t.id.core == core)).map (fun t =>
    { slot := t.id.slot, xbase := t.xbase, xsize := t.xsize, vbase := t.vbase, vsize := t.vsize, wheel := t.wheel })) ++
  (s.kernels.flatMap (fun k => if k.2.phase = .dispatched then
      ((k.2.placed.drop k.2.created).filter (fun p => p.1 == core)).map (fun p =>
        { slot := p.2.1, xbase := p.2.2.1, xsize := k.2.xsize, vbase := p.2.2.2.1, vsize := k.2.vsize,
          wheel := p.2.2.2.2 })
    else [])) ++
  ((s.ni.transits.filter (fun x => x.ctx.home.1 == s.ni.peer && x.ctx.home.2.core == core)).map (fun x =>
    { slot := 64, xbase := x.xbase, xsize := x.ctx.xs.length, vbase := 0, vsize := 0, wheel := x.wheel }))

/-- The lowest base at which a run of n entries fits beside the used runs (R14, R333): 0 or the end of a used run. -/
def lowestBase (size n : Nat) (used : List (Nat × Nat)) : Option Nat :=
  let fits := fun b => b + n ≤ size && used.all (fun u => u.2 = 0 || b + n ≤ u.1 || u.1 + u.2 ≤ b || n = 0)
  let cands := (0 :: used.map (fun u => u.1 + u.2)).filter fits
  cands.foldl (fun (m : Option Nat) b => match m with
    | none => some b
    | some x => some (Nat.min x b)) none

/-- The n lowest-numbered wheel positions that nothing owns, when there are as many (R333). -/
def lowestPositions (n : Nat) (owned : W64) : Option W64 :=
  let free := ((List.range 64).filter (fun p => !bit owned p)).take n
  if free.length = n then some (free.foldl (fun w p => w ||| at_ 1 p) 0) else none

/-- The place that one more thread takes on a core, given the slots taken (R200, R333). -/
def placeOn (occ : List Occ) (xsize vsize wheel : Nat) : Option Occ :=
  match (List.range 64).find? (fun n => !occ.any (fun o => o.slot == n)),
    lowestBase 2048 xsize (occ.map (fun o => (o.xbase, o.xsize))),
    lowestBase 256 vsize (occ.map (fun o => (o.vbase, o.vsize))),
    lowestPositions wheel (occ.foldl (fun w o => w ||| o.wheel) 0) with
  | some n, some xb, some vb, some w => some { slot := n, xbase := xb, xsize := xsize, vbase := vb, vsize := vsize, wheel := w }
  | _, _, _, _ => none

/-- Whether a row is held by no context and takes part in dispatch (R12, R470). -/
def State.rowFree (s : State) (row : Nat) : Bool :=
  !(s.row row).mappedOut && !s.ctxs.any (fun c => (c.2.phase != .saved) && c.2.rows.contains row)

/-- Whether a core may take threads of a context (R333): in its partition, and its row held by the context or by none. -/
def State.coreOpen (s : State) (c : Ctx) (core : Nat) : Bool :=
  s.inPartition c core && (c.rows.contains (core / 4) || s.rowFree (core / 4))

/-! ### Threads begin and end (R45, R46, R201, R333) -/

/-- A thread with the values of R45 that a LAUNCH thread starts with. -/
def newThread (t : Tid) (asid kernel : Nat) : Thread :=
  { id := t, asid := asid, kernel := kernel, xbase := 0, xsize := 8, vbase := 0, vsize := 0, wheel := 0,
    x := Vector.replicate 128 0, v := Vector.replicate 32 0, m := Vector.replicate 8 0, fm := Vector.replicate 8 0,
    csr := { fcsr := 0, vtime := 0, tvec := 0, tepc := 0, tcause := 0, tval := 0, tsave := 0, chk := false,
             feretry := 4096, detlvl := 0 },
    regions := [], pc := 0, insn := 0, run := .ready, gapUntil := 0, issuedAt := 0, pend := [], pairs := [], sbuf := [],
    lost := [], detCount := 0, gang := .none, cancel := false, cap := 0, entry := none, after := none, ovr := false,
    again := false, landed := false }

/-- Bytes, FE bits and poison of a range of keys are cleared. -/
def Memory.clearRange (m : Memory) (lo hi : Nat) : Memory :=
  { m with bytes := m.bytes.filter (fun e => e.1 < lo || hi ≤ e.1),
           full := m.full.filter (fun e => e.1 * 8 < lo || hi ≤ e.1 * 8),
           poison := m.poison.filter (fun e => e.1 * 8 < lo || hi ≤ e.1 * 8) }

/-- A context first holds a row: its local stores hold zero and are empty, its core-wide and row-wide state is fresh
(R35, R39, R46). -/
def State.holdRow (s : State) (asid row exch : Nat) : State :=
  match s.ctx? asid with
  | none => s
  | some c =>
    if c.rows.contains row then s
    else
      let s1 := s.setMem (s.mem.clearRange (localKey (4 * row) 0) (localKey (4 * row + 4) 0))
      let s2 := (List.range 4).foldl (fun a i => a.putCore (4 * row + i) { CoreRec.fresh with exch := exch }) s1
      let s3 := s2.putRow row { RowRec.fresh with mappedOut := (s2.row row).mappedOut, mapoutReq := (s2.row row).mapoutReq }
      s3.modCtx asid (fun c => { c with rows := c.rows ++ [row], exch := exch })

/-- A cluster that newly receives a context gets every code range loaded for it (R333). -/
def State.holdCluster (s : State) (asid cluster : Nat) : State :=
  match s.ctx? asid with
  | none => s
  | some c =>
    if c.clusters.contains cluster then s
    else
      let m := c.image.foldl (fun (m : Memory) e => m.write (codeKey cluster e.1) e.2) s.mem
      let m1 := { m with badCode := m.badCode.filter (fun k => !c.image.any (fun e => codeKey cluster (e.1 / 4 * 4) == k)) }
      (s.setMem m1).modCtx asid (fun c => { c with clusters := c.clusters ++ [cluster] })

/-- Launches that wait for resources are tried again (R333). -/
def State.retryDispatch (s : State) : State :=
  s.kernels.foldl (fun st k => if k.2.phase = .waiting then st.sched_ st.ticks rankLast (.dispatch k.1) else st) s

/-- Queues whose head packet waits look at their conditions again (R299, R332). -/
def State.retryQueues (s : State) : State :=
  s.queues.foldl (fun st q => if q.2.state = 2 then
    match q.2.packet with
    | some (w :: _) =>
      if fld w 0 8 = 3 then st.sched_ st.ticks rankLast (.signal q.1)
      else if fld w 0 8 = 4 then st.sched_ st.ticks rankLast (.pin q.1)
      else if fld w 0 8 = 5 then st.sched_ st.ticks rankLast (.unpin q.1)
      else if fld w 0 8 = 8 then st.sched_ st.ticks rankLast (.detlvl q.1)
      else if fld w 0 8 = 9 then st.sched_ st.ticks rankLast (.slotplan q.1)
      else st
    | _ => st
  else st) s

/-- Copy entries of a core in use (R276). -/
def State.copiesOf (s : State) (core : Nat) : Nat :=
  (s.copies.filter (fun c => c.pull.isNone && c.tid.core == core)).length

/-- Whether every thread of a kernel has ended and its engines have finished (R299). -/
def State.kernelDone (s : State) (k : Nat) (r : Kernel) : Bool :=
  r.phase = .dispatched && r.created = r.count &&
    !s.threads.any (fun t => t.2.kernel == k) &&
    !s.ni.transits.any (fun x => x.ctx.home.1 == s.ni.peer && x.ctx.kernel == k) &&
    !s.copies.any (fun c => c.pull.isNone && c.kernel == k) &&
    !s.ni.sends.any (fun m => m.kernel == k) &&
    !s.rows.any (fun x => x.2.queue.any (fun f => f.kernels.contains k))

/-- Retires a kernel that is done (R299, R337). -/
def State.tryRetire (s : State) (k : Nat) : State :=
  match s.kernels.find? k with
  | none => s
  | some r =>
    if s.kernelDone k r then
      let s1 := { s with kernels := s.kernels.put k { r with phase := .retired } }
      let s2 := if r.cancel then s1.errorRecord r.queue
          { kind := 2, code := 0x0B, first := false, tag := r.tag, ticks := s.ticks, thread := none, asid := r.asid,
            origin := s.ni.peer, epc := 0, lid := r.lid, val := 0, tcause := 0, head := 0 }
        else s1
      s2.retryQueues.retryDispatch
    else s

/-- Work of an ended thread that engines still carry out is no thread's any more. -/
def State.disown (s : State) (t : Tid) : State :=
  { s with
    copies := s.copies.map (fun c => if c.tid = t then { c with own := false } else c),
    ni := { s.ni with sends := s.ni.sends.map (fun m => if m.hdr.tid = t then { m with own := false } else m) },
    rows := s.rows.map (fun r => (r.1, { r.2 with queue := r.2.queue.map (fun f =>
      { f with tids := f.tids.map (fun x => if x = t then { x with slot := 64 } else x) }) })) }

/-- A slot becomes free, with its windows and wheel positions (R13, R201). -/
def State.freeSlot (s : State) (t : Tid) : State :=
  match s.thread? t with
  | none => s
  | some th => (((({ s with threads := s.threads.erase (tkey t) }).modCtx th.asid (fun c => { c with stopTick := s.ticks })).disown t).tryRetire
      th.kernel).retryDispatch

/-! ### Groups (R202 to R205) -/

def State.group (s : State) (asid g : Nat) : Group :=
  match s.ctx? asid with
  | some c => c.groups.getD g Group.closed
  | none => Group.closed

def State.putGroup (s : State) (asid g : Nat) (r : Group) : State :=
  s.modCtx asid (fun c => { c with groups := c.groups.setD g r Group.closed })

/-- The memberships of a thread. -/
def State.membersOf (s : State) (t : Tid) : List Member := (s.core t.core).members.filter (fun m => m.slot == t.slot)

/-- Whether every thread of the open phase's set has arrived on this package (R203). -/
def Group.allHere (g : Group) : Bool := g.set.all (fun t => g.arrivals.any (fun a => a.tid == t))

/-- The largest of recorded VTIMEs. -/
def topVtime (as : List GArrival) (top : W64) : W64 :=
  as.foldl (fun m a => if m.toNat < a.vtime.toNat then a.vtime else m) top

/-- The other packages of the domain. -/
def State.otherPeers (s : State) : List Nat :=
  (s.ni.table.map (·.1)).filter (fun p => p != s.ni.peer && s.peerValid p)

/-- The root of a group: the lowest-numbered peer that holds members (R440). -/
def State.rootOf (s : State) (g : Group) : Nat := g.peers.foldl Nat.min s.ni.peer

/-- A phase closes: pending memberships take effect (R203, R204). -/
def State.closePhase (s : State) (asid g : Nat) (p : Phase) : State :=
  let rows := match s.ctx? asid with | some c => c.rows | none => []
  let s1 := rows.foldl (fun st row => (List.range 4).foldl (fun st i => st.modCore (4 * row + i) (fun c =>
    { c with members := c.members.map (fun m => if m.group = g then { m with pending := false } else m) })) st) s
  let r := s1.group asid g
  s1.putGroup asid g { r with isOpen := false, set := [], arrivals := [], tide := false, openAt := (0, 0), sent := false,
                              recalls := [], reopen := none, left := [], remote := [], peers := [],
                              done := r.done ++ [p] }

/-- Whether a context spans packages. -/
def State.spans (s : State) (asid : Nat) : Bool := match s.ctx? asid with | some c => c.spans | none => false

/-- When every member here has arrived: the phase of a group on one package closes, and wakes its members 40 ticks later
(R411); of a group known to span packages, the arrival goes to the root, or the root completes the phase (R440). -/
def State.phaseCheck (s : State) (asid g : Nat) : State :=
  let r := s.group asid g
  if r.isOpen && !r.set.isEmpty && r.allHere then
    if s.rootOf r = s.ni.peer then
      if r.peers.all (fun p => r.remote.any (fun x => x.1 == p)) then
        let top := r.remote.foldl (fun (m : W64) x => if m.toNat < x.2.toNat then x.2 else m) 0
        let s1 := (if s.spans asid then s.otherPeers else []).foldl (fun st p =>
          st.tell p (.completion asid g (topVtime r.arrivals top))) s
        (s1.closePhase asid g { arrivals := r.arrivals, tide := r.tide, top := top }).after_ 40 rankLand (.barrierComplete asid g)
      else s
    else if r.sent then s
    else (s.putGroup asid g { r with sent := true }).tell (s.rootOf r) (.arrival asid g (.arrived (topVtime r.arrivals 0)))
  else s

/-- Records an arrival, with the thread's VTIME (R205). -/
def State.arrive (s : State) (th : Thread) (g : Nat) (byGbar : Bool) : State :=
  let r := s.group th.asid g
  (s.putGroup th.asid g { r with arrivals := r.arrivals ++ [{ tid := th.id, vtime := th.csr.vtime, byGbar := byGbar }] }).phaseCheck
    th.asid g

/-- The members of a group on this package that have joined by a tick (R203). -/
def State.memberSet (s : State) (asid g tick : Nat) : List Tid :=
  let rows := match s.ctx? asid with | some c => c.rows | none => []
  rows.flatMap (fun row => (List.range 4).flatMap (fun i =>
    ((s.core (4 * row + i)).members.filter (fun m => m.group == g && !m.pending && m.since ≤ tick)).map (fun m =>
      { core := 4 * row + i, slot := m.slot })))

/-- The members of a tick that have left since: their leaving is an arrival (R203, R204). -/
def Group.leftSince (r : Group) (tick : Nat) : List GArrival :=
  (r.left.filter (fun x => tick < x.2.2)).map (fun x => { tid := x.1, vtime := x.2.1, byGbar := false })

/-- A JOIN made after the tick at which the phase opened waits for the next phase (R204). -/
def State.joinsWait (s : State) (asid g tick : Nat) : State :=
  let rows := match s.ctx? asid with | some c => c.rows | none => []
  rows.foldl (fun st row => (List.range 4).foldl (fun st i => st.modCore (4 * row + i) (fun c =>
    { c with members := c.members.map (fun m => if m.group = g && tick < m.since then { m with pending := true } else m) })) st) s

/-- A phase opens at the first arrival, here or on another package, at the tick of that arrival: its member set is fixed (R203).
Which other packages hold members of a context that spans packages is free (R440, log 24); those that have told of an arrival hold
some. -/
def State.openPhase (s : State) (asid g : Nat) (tide : Bool) (at_ : Nat × Nat) : State :=
  let r := s.group asid g
  let d := if s.spans asid then s.draw 0 else (0, s)
  let gone := r.leftSince at_.1
  (d.2.joinsWait asid g at_.1).putGroup asid g { r with
    isOpen := true, set := s.memberSet asid g at_.1 ++ gone.map (·.tid), arrivals := gone, tide := tide, openAt := at_,
    peers := if s.spans asid then
        s.otherPeers.filter (fun p => d.1.testBit p || p == at_.2 || r.remote.any (fun x => x.1 == p))
      else r.peers }

/-- The first arrival here of a phase that is not open opens it, and the other packages of a spanning context are told (R203,
R205). -/
def State.firstArrival (s : State) (asid g : Nat) (tide : Bool) : State :=
  let s1 := s.openPhase asid g tide (s.ticks, s.ni.peer)
  if s.spans asid then s.otherPeers.foldl (fun st p => st.tell p (.arrival asid g (.opened s.ticks tide))) s1 else s1

/-- A parked GBAR arrives, once the thread's earlier stores are performed and its membership is in force; the first
arrival opens the phase (R203 to R205). -/
def State.gbarArrives (s : State) (t : Tid) (g : Nat) (tide : Bool) : State :=
  match s.thread? t with
  | none => s
  | some th =>
    if !th.sbuf.all (·.held.isSome) || s.mxReads t s.sched.ids || (s.membersOf t).any (fun m => m.group == g && m.pending) then s
    else
      let r := s.group th.asid g
      if r.isOpen && r.tide != tide then s.trapParked t .gangmismatch (at_ g 0)
      else
        let s1 := if r.isOpen then s else s.firstArrival th.asid g tide
        (s1.modThread t (fun u => { u with run := .parked (.gbar g tide true) })).arrive th g true

/-- A GBAR is withdrawn: its arrival in a phase still open goes; a phase of one package left without arrivals is open no more
(R219, R354). -/
def State.gbarWithdrawn (s : State) (th : Thread) (g : Nat) : State :=
  let r := s.group th.asid g
  let left := r.arrivals.filter (fun a => !(a.tid == th.id))
  if left.isEmpty && !s.spans th.asid then
    let s1 := s.closePhase th.asid g { arrivals := [], tide := false, top := 0 }
    s1.putGroup th.asid g { s1.group th.asid g with done := r.done }
  else s.putGroup th.asid g { r with arrivals := left }

/-- Whether a GBAR that waits may be withdrawn at once: it has not arrived, or its phase is open and not reported to another
root (R219). -/
def State.gbarOpen (s : State) (th : Thread) (g : Nat) (arrived : Bool) : Bool :=
  !arrived ||
    (let r := s.group th.asid g
     r.isOpen && !r.sent && r.arrivals.any (fun a => a.tid == th.id && a.byGbar))

/-- Leaves one group: during an open phase of which the thread is a set member that has not arrived, this is its arrival
(R204). A context that spans packages keeps it in mind, should the phase have opened before elsewhere. -/
def State.leaveGroup (s : State) (th : Thread) (g : Nat) : State :=
  let s1 := s.modCore th.id.core (fun c => { c with members := c.members.filter (fun m => !(m.group == g && m.slot == th.id.slot)) })
  let r := s.group th.asid g
  if r.isOpen then (if r.set.contains th.id && !r.arrivals.any (fun a => a.tid == th.id) then s1.arrive th g false else s1)
  else if s.spans th.asid then s1.putGroup th.asid g { r with left := r.left ++ [(th.id, th.csr.vtime, s.ticks)] }
  else s1

/-- Steps 1 and 2 of EXIT (R201): pending writes are discarded, every group is left. -/
def State.leaveAll (s : State) (t : Tid) : State :=
  match s.thread? t with
  | none => s
  | some th =>
    let s1 := s.putThread { th with pend := [] }
    (s.membersOf t).foldl (fun a m => a.leaveGroup { th with pend := [] } m.group) s1

/-- Steps 1 to 4 of EXIT (R201): the thread parks until its store buffer is empty, then its slot is free. -/
def State.endThread (s : State) (t : Tid) : State :=
  let s1 := s.leaveAll t
  match s1.thread? t with
  | none => s1
  | some th => if th.sbuf.isEmpty then s1.freeSlot t else (s1.park t .exitDrain)

/-- The members of a gang go on by themselves, each at its own next word, without its lag. -/
def State.partGang (s : State) (ms : List Tid) : State :=
  (ms.filterMap (fun m => (s.thread? m).map (fun t => (m, firstUnissued s t)))).foldl (fun (st : State) (p : Tid × Nat) =>
    (st.modThread p.1 (fun u => { u with gang := .none, pc := p.2 })).modCore p.1.core (fun c => { c with lag := 0 })) s

/-- A thread of a cancelled kernel ends with CANCELLED (R337): held stores are released with their regions gone. A gang whose
members are all cancelled parts; another is dissolved. -/
def State.endCancelled (s : State) (t : Tid) : State :=
  match s.thread? t with
  | none => s
  | some th =>
    let ms := s.gangOf th
    let s0 := match th.gang with
      | .none => s
      | _ => if ms.all (fun m => (s.thread? m).any (fun (u : Thread) => u.cancel)) then s.partGang ms else s.dissolve th
    s0.endThread t

end Sys2Proof.Machine
end

