-- ==== Sys2Proof/Machine/Messages.lean ====
section
/-! DEFINITION. Two-sided messages: ranks, descriptors, sending, the receive engine's matching, refusal and landings
(spec 10; 19 R379 to R388). -/

namespace Sys2Proof.Machine

/-! ### Engines at memory (R34, R305, R390) -/

/-- The cells of a list of places that are poisoned, each with the offset at which it is met first. -/
def Memory.firstBad (m : Memory) (l : List (Nat × PLoc)) : List Nat :=
  (l.foldl (fun (x : List Nat × List Nat) e =>
    let bad := e.2.cells.eraseDups.filter (fun k => m.poisoned k && !x.1.contains k)
    (bad ++ x.1, x.2 ++ List.replicate bad.length e.1)) ([], [])).2

/-- Bytes that an engine reads, by offset, and whether each is poisoned: those read as zero; and the offset at which each poisoned cell is
met first (R34). -/
def State.readPlaces (s : State) (l : List (Nat × PLoc)) : List (Nat × Byte × Bool) × List Nat :=
  (l.map (fun e => (e.1, s.mem.readP e.2, e.2.cells.any s.mem.poisoned)), s.mem.firstBad l)

/-- Writes bytes, by offset from an address, for a core, and sets the cells written full when FILL = 1 (R269, R390). -/
def State.writePlaces (s : State) (c : Ctx) (core : Nat) (a : W64) (l : List (Nat × Byte)) (fill : Bool) : State :=
  let ps := l.map (fun e => s.ploc core (locOf c core a e.1))
  let s1 := s.setMem ((ps.zip l).foldl (fun m e => m.writeP e.1 e.2.2) s.mem)
  if fill then ((ps.flatMap PLoc.cells).eraseDups).foldl (fun st k => st.setFull k true) s1 else s1

/-- Writes bytes for a core, and sets the cells written full when FILL = 1 (R269, R390). -/
def State.engineWrite (s : State) (c : Ctx) (core : Nat) (a : W64) (bytes : List Byte) (fill : Bool) : State :=
  s.writePlaces c core a ((List.range bytes.length).zip bytes) fill

/-- Adds 1 to a mailbox counter (R35, R36). -/
def State.mailAdd (s : State) (core ctr : Nat) : State :=
  s.modCore core (fun c => { c with mail := c.mail.setD ctr (c.mail.getD ctr 0 + 1) 0 })

/-- A context of which an engine uses only the region records that its instruction captured at issue (R311). -/
def viewsOnly (v : Tab (W64 × W64)) : Ctx := { Ctx.blank with views := v }

/-! ### Packets of engines (R381, R385, R399) -/

/-- The home of a die's match unit: a cluster of the die (log 103). -/
def rxeHome (die : Nat) : Nat := die * 72 + Config.rxeCluster die % 72

/-- The die of a core. -/
def dieOf (core : Nat) : Nat := core / 1152

/-- A packet of an engine sets out, in the general class (R385): of a kernel with a slot plan, or of none. -/
def State.enginePacket (s : State) (src dst : Nat) (kernel : Option Nat) (bytes latest rank : Nat) (e : Instr) : State :=
  s.netSend src dst ((2 ^ 31 + src) * 8192 + 7000 + dst) false kernel bytes 0 latest 0 rank false e

/-- The port at which a byte of an engine's access lies: a core's, or a DRAM channel's. -/
def State.portAt (s : State) (core : Nat) (l : ByteLoc) : Nat := placeOf (keyOfLocs [s.ploc core l])

/-- The home of byte o of an engine's access. -/
def State.homeAt (s : State) (c : Ctx) (core : Nat) (a : W64) (o : Nat) : Nat := portHome (s.portAt core (locOf c core a o))

/-! ### Checks of descriptors and ranks (R258, R260, R432) -/

/-- Step 1 of R258: the descriptor's own address. -/
def descFault (core : Nat) (a : W64) (n : Nat) : Option Cause :=
  if bit a 63 || fld a 61 2 ≠ 1 || fld a 18 30 ≠ 0 || localCore core a ≠ core || 0x30000 < fld a 0 18 + n then some .protect
  else if fld a 0 3 ≠ 0 then some .align
  else none

/-- A range that a descriptor names, under R172: an empty range names no byte. -/
def State.rangeFault (s : State) (c : Ctx) (core : Nat) (a : W64) (n : Nat) (rd wr : Bool) : Option Cause :=
  if n = 0 then none
  else if protectFault c core a n rd wr || (!bit a 63 && fld a 61 2 = 1 && 0x30000 < fld a 0 18 + n) then some .protect
  else if bit a 63 && !(bit c.features 10 && s.peerValid (peerOf a)) then some .nopeer
  else none

/-- A rank-table entry in use (R432). -/
structure RankEntry where
  peer    : Nat
  core    : Nat
  transit : Bool
  deriving DecidableEq, Repr

def State.rank? (s : State) (r : Nat) : Option RankEntry :=
  let e := s.ni.ranks.getD r 0
  if bit e 24 then some { peer := fld e 0 11, core := fld e 11 13, transit := bit e 25 } else none

/-- A destination rank: its entry valid and its peer reachable (R260, R431). -/
def State.rankFault (s : State) (c : Ctx) (r : Nat) : Option (Cause × W64) :=
  match s.rank? r with
  | none => some (.nopeer, at_ r 0)
  | some e =>
    if e.peer = s.ni.peer || (bit c.features 10 && s.peerValid e.peer) then none else some (.nopeer, at_ r 0)

/-- A source or receiving rank: it maps to the issuing core (R260). -/
def State.ownRankFault (s : State) (core r : Nat) (a : W64) : Option (Cause × W64) :=
  match s.rank? r with
  | none => some (.nopeer, at_ r 0)
  | some e => if e.peer = s.ni.peer && e.core = core then none else some (.illegal, a)

/-- The source limit of SEND and MCAST (R262). -/
def messageSource (core : Nat) (src : W64) (len : Nat) : Bool :=
  !bit src 63 && (fld src 61 2 = 0 || fld src 61 2 = 2 || (fld src 61 2 = 1 && len ≤ 4096 && localCore core src = core))

/-! ### Sending (R263, R264, R274) -/

/-- Pairs of ranks of a context (R263). -/
def pairKey (asid srank drank : Nat) : Nat := (asid * 65536 + srank) * 65536 + drank

def headerPair (h : Header) : Nat := pairKey h.asid h.srank h.drank

/-- Takes the next sequence number of a pair (R263). -/
def State.takeSeq (s : State) (key : Nat) : Nat × State :=
  let n := s.ni.pairSeq.getD key 0
  (n, { s with ni := { s.ni with pairSeq := s.ni.pairSeq.put key ((n + 1) % 2 ^ 32) } })

def State.send? (s : State) (id : Nat) : Option SendRec := s.ni.sends.find? (·.id == id)
def State.setSend (s : State) (m : SendRec) : State :=
  { s with ni := { s.ni with sends := s.ni.sends.map (fun x => if x.id = m.id then m else x) } }
def State.dropSend (s : State) (id : Nat) : State :=
  { s with ni := { s.ni with sends := s.ni.sends.filter (fun x => !(x.id == id)) } }

/-- Adds the record of one message, or of one destination of a multicast, with its bound (R264). -/
def State.addSend (s : State) (m : SendRec) (bound : Nat) : State :=
  ({ s with ni := { s.ni with sends := s.ni.sends ++ [m] } }).after_ bound rankLast (.sendBoundExpiry m.id)

/-- Whether every earlier store of the thread but those held by a region is performed (R259). -/
def Thread.storesDone (th : Thread) : Bool := th.sbuf.all (·.held.isSome)

/-- A parked SEND or MCAST goes on once its earlier stores are performed: its source is read after a free time (R259,
R385). -/
def State.goMessage (s : State) (t : Tid) (ids : List Nat) (desc : W64) : State :=
  match s.thread? t with
  | none => s
  | some th =>
    if th.storesDone then
      match ids with
      | id :: _ => (s.modThread t (fun th => { th with run := .parked (.message ids desc) })).later 0 rankLand (.headerResend id)
      | [] => s.wake t
    else s.modThread t (fun th => { th with run := .parked (.messageStores ids desc) })

/-- A header leaves for its destination: the match unit of the rank's die, or another package (R264, R381); a MODE 1 payload for
its core (R274). -/
def State.sendHeader (s : State) (m : SendRec) : State :=
  let home := clusterOf m.hdr.tid.core
  let go := fun (dst : Nat) => s.enginePacket home dst (s.plannedKernel m.kernel) (64 + m.hdr.payload.length) 0
    (rankArrive (globalName m.hdr.srcPeer m.hdr.tid)) (.headerArrival m.hdr)
  match m.direct, s.rank? m.hdr.drank with
  | some d, _ => go (clusterOf d.core)
  | none, some e => if e.peer = s.ni.peer then go (rxeHome (dieOf e.core)) else s.tell e.peer (.header { m.hdr with target := e.peer })
  | none, none => go (rxeHome (dieOf m.hdr.tid.core))

/-- The whole source has been read: its completion is counted, once for a multicast, and the headers leave (R263, R274). A multicast
without destination is accepted by all of them. -/
def State.sourceRead (s : State) (m : SendRec) : State :=
  let payload := (List.range m.hdr.len).map (fun o => ((m.got.find? (fun e => e.1 == o)).map (·.2)).getD 0)
  let mine := (s.ni.sends.filter (fun x => x.group == m.group && x.fate == .underWay)).map (fun (x : SendRec) =>
    { x with staged := true, counted := true, got := [], hdr := { x.hdr with payload := payload, pois := m.hdr.pois } })
  mine.foldl (fun st x =>
    if x.nobody then (st.setSend { x with accepted := true }).later 0 rankEngine (.acceptanceReply x.id)
    else (st.setSend x).sendHeader x) (s.mailAdd m.hdr.tid.core m.hdr.cmbox)

/-- The source bytes of a message that lie at a port: of one unit of 512 bytes, or of all. -/
def State.sourceAt (s : State) (m : SendRec) (port : Nat) (unit : Option Nat) : List (Nat × PLoc) :=
  let core := m.hdr.tid.core
  ((List.range m.hdr.len).filter (fun o => unit.all (fun q => o / 512 == q))).filterMap (fun o =>
    let l := locOf (viewsOnly m.views) core m.hdr.saddr o
    if s.portAt core l = port then some (o, s.ploc core l) else none)

/-- Source bytes of a message are read (R34, R263, R361, R362). -/
def State.readSource (s : State) (m : SendRec) (port : Nat) (unit : Option Nat) : SendRec × State :=
  let l := s.sourceAt m port unit
  let r := s.readPlaces l
  let s1 := s.count m.hdr.asid 8 r.2.length
  ({ m with got := m.got ++ r.1.map (fun e => (e.1, e.2.1)), hdr := { m.hdr with pois := m.hdr.pois ++ r.2 } },
    if l.isEmpty then s1 else s1.mayCorrect m.hdr.asid (keyOfLocs (l.map (·.2))))

/-- Where units of a message's source lie beside the core itself: unit and port. -/
def State.sourceParts (s : State) (m : SendRec) : List (Nat × Nat) :=
  let core := m.hdr.tid.core
  (((List.range m.hdr.len).map (fun o => (o / 512, s.portAt core (locOf (viewsOnly m.views) core m.hdr.saddr o)))).eraseDups).filter
    (fun p => p.2 != core)

/-- The source of a message is read (eager): at once in the core's own store, elsewhere by packets of the general class to the ports that
hold it (R263, R274, R399). A header refused before leaves again (R264); that of a rendezvous message leaves alone. -/
def State.stageSend (s : State) (m : SendRec) : State :=
  let core := m.hdr.tid.core
  if m.staged then s.sendHeader m
  else if m.asked then s
  else if m.hdr.kind = .rendezvous then
    let m1 := { m with staged := true }
    (s.setSend m1).sendHeader m1
  else
    let parts := s.sourceParts m
    let r := s.readSource { m with asked := true, parts := parts } core none
    let s1 := r.2.setSend r.1
    if parts.isEmpty then s1.sourceRead r.1
    else parts.foldl (fun st p => st.portPacket core p.2 false (st.plannedKernel m.kernel) 8 0 0 (rankArrive (globalName s.ni.peer m.hdr.tid))
      false (.source m.id p.1)) s1

/-- A port reads source bytes of a message for its core, and sends them there (R263, R399). -/
def State.sourceAsked (s : State) (id q port : Nat) : State :=
  match s.send? id with
  | none => s
  | some m =>
    let r := s.readSource m port (some q)
    (r.2.setSend r.1).portPacket port m.hdr.tid.core false (s.plannedKernel m.kernel) 512 0 0 (rankArrive (globalName s.ni.peer m.hdr.tid)) false
      (.sourceBack id q)

/-- Source bytes of a message are back at its core; with the last of them the message goes on (R263). -/
def State.sourceCame (s : State) (id q port : Nat) : State :=
  match s.send? id with
  | none => s
  | some m =>
    let m1 := { m with parts := m.parts.filter (· != (q, port)) }
    if m1.parts.isEmpty && !m.parts.isEmpty then (s.setSend m1).sourceRead m1 else s.setSend m1

/-! ### Acceptance, binding and queueing (R266 to R268, R383 to R388) -/

/-- Eager units of a payload (R379). -/
def unitsOf (n : Nat) : Nat := (n + 511) / 512
def headerUnits (h : Header) : Nat := if h.kind = .rendezvous then 0 else unitsOf h.len

/-- Whether the receive matches a header (R265). -/
def Recv.matches (r : Recv) (h : Header) : Bool :=
  r.asid == h.asid && r.drank == h.drank &&
    (BitVec.ofNat 16 h.srank ^^^ r.src) &&& r.smask == 0 && (h.tag ^^^ r.tag) &&& r.tmask == 0

/-- The order of eligible headers at DET1 and DET2 (R268). -/
def headerBefore (a b : Header) : Bool :=
  a.stamp.toNat < b.stamp.toNat ||
    (a.stamp == b.stamp && (a.srank < b.srank || (a.srank == b.srank && a.seq < b.seq)))

def insertHeader (h : Header) : List Header → List Header
  | [] => [h]
  | x :: r => if headerBefore h x then h :: x :: r else x :: insertHeader h r

/-- Whether the headers of a rank may be bound now: it is here and not in transit (R387). -/
def State.rankHere (s : State) (r : Nat) : Bool :=
  match s.rank? r with
  | some e => e.peer == s.ni.peer && !e.transit
  | none => false

/-- The eligible unexpected headers of a context, in the order in which they are searched (R267, R268). -/
def State.eligible (s : State) (c : Ctx) : List Header :=
  let mine := s.rxe.unexp.filter (fun h => h.asid == c.asid && s.rankHere h.drank)
  if c.level = 0 then mine
  else (mine.filter (fun h => h.stamp.toNat < c.seenLwm.toNat)).foldl (fun l h => insertHeader h l) []

/-- The reply to a header goes to the sender's NI, or to the package that forwards it (R387, R388). -/
def State.replyFar (s : State) (h : Header) (m : Nat → MsgOut) : State :=
  match h.via with
  | some v => s.tell v.1 (m v.2)
  | none => s.tell h.srcPeer (m h.sendId)

/-- A header uses its reservation: its sender leaves the refusal list (R388). -/
def State.unlist (s : State) (h : Header) : State :=
  { s with rxe := { s.rxe with refusals := s.rxe.refusals.filter (fun r => !(r.peer == h.srcPeer && r.pair == headerPair h && r.seq == h.seq)) } }

/-- Word that a header is accepted goes to the sender's NI (R263, R264). -/
def State.acceptHeader (s : State) (h : Header) : State :=
  let s1 := s.unlist h
  if h.srcPeer = s.ni.peer && h.via.isNone then
    match s1.send? h.sendId with
    | some m =>
      let die := match s.rank? h.drank with | some e => dieOf e.core | none => dieOf h.tid.core
      (s1.setSend { m with accepted := true }).enginePacket (rxeHome die) (clusterOf h.tid.core) (s.plannedKernel m.kernel) 16 0 rankEngine
        (.acceptanceReply h.sendId)
    | none => s1
  else s1.replyFar h .accepted

/-- A refused header enters the refusal list on its first refusal, and is sent again 64 ticks after the reply, which names the cause
(R388). -/
def State.refuseHeader (s : State) (h : Header) (r : Refused) (cause : RefuseCause) : State :=
  let listed := s.rxe.refusals.any (fun x => x.peer == h.srcPeer && x.pair == headerPair h && x.seq == h.seq)
  let s1 := if listed || 1024 ≤ s.rxe.refusals.length then s
    else { s with rxe := { s.rxe with refusals := s.rxe.refusals ++ [r] } }
  if h.srcPeer = s.ni.peer && h.via.isNone then
    let d := s1.draw 0
    d.2.after_ (65 + d.1) rankLand (.headerResend h.sendId)
  else s1.replyFar h (fun n => .refused n cause)

/-- The capacity reserved for the senders of the refusal list ahead of a header (R388). -/
def State.reserved (s : State) (h : Header) : List Refused :=
  s.rxe.refusals.takeWhile (fun r => !(r.peer == h.srcPeer && r.pair == headerPair h && r.seq == h.seq))

/-- Eager units in use (R379, R385). -/
def State.unitsUsed (s : State) : List Nat :=
  s.rxe.unexp.flatMap (·.units) ++ (s.rxe.landings.filter (·.units)).flatMap (fun l => l.packets.filterMap (fun q => l.hdr.units[q]?))

/-- Free eager units that cannot be written (R386). -/
def State.badUnits (s : State) : List Nat :=
  ((s.rxe.badGroups.map (· / 16)).eraseDups).filter (fun u => !s.unitsUsed.contains u)

/-- The n lowest eager units from u on that are not taken. -/
def freeUnits (taken : List Nat) : Nat → Nat → Nat → List Nat
  | 0, _, _ => []
  | _, _, 0 => []
  | f + 1, u, n + 1 => if taken.contains u then freeUnits taken f (u + 1) (n + 1) else u :: freeUnits taken f (u + 1) n

/-- A header that goes to the unexpected queue, with the eager units that take its payload; one that cannot be written is skipped
(R385, R386). -/
def State.withUnits (s : State) (h : Header) : Header :=
  { h with units := freeUnits (s.unitsUsed ++ s.badUnits) 8192 0 (headerUnits h) }

/-- What keeps a header from the unexpected queue: no room there, or too few eager units (R264, R379, R388). -/
def State.queueRefuses (s : State) (h : Header) : Option RefuseCause :=
  let ahead := s.reserved h
  if 8192 ≤ s.rxe.unexp.length + (ahead.map (·.queue)).sum then some .queueFull
  else if headerUnits h ≠ 0 && 8192 < s.unitsUsed.length + s.badUnits.length + (ahead.map (·.units)).sum + headerUnits h then
    some .fewUnits
  else none

/-- The bytes of an eager unit that holds packet q of a payload, a poisoned group as zeros, and the offsets in the payload of the poisoned
cells of its first n bytes (R386). -/
def State.unitBytes (s : State) (h : Header) (q n : Nat) : List Byte × List Nat :=
  let u := h.units.getD q 0
  let bad := fun (g : Nat) => s.rxe.badGroups.contains (16 * u + g)
  (((((h.payload.drop (512 * q)).take n).zip (List.range n)).map (fun p => if bad (p.2 / 32) then 0 else p.1)),
    ((List.range n).filter (fun o => o % 8 == 0 && bad (o / 32))).map (512 * q + ·))

/-- A freed unit is sound when it is written anew (R34). -/
def State.freeUnit (s : State) (u : Nat) : State :=
  { s with rxe := { s.rxe with badGroups := s.rxe.badGroups.filter (fun g => g / 16 != u) } }

/-- The numbers abandoned ahead of a pair's next number count as queued (R264, R383). -/
def skipAhead (key : Nat) : Nat → Nat → List (Nat × Nat) → Nat × List (Nat × Nat)
  | 0, n, l => (n, l)
  | f + 1, n, l => if l.contains (key, n) then skipAhead key f ((n + 1) % 2 ^ 32) (l.filter (· != (key, n))) else (n, l)

/-- A number of a pair is bound, queued or abandoned: the next header of the pair leaves the reorder stage in the next
tick (R383). -/
def State.takeNumber (s : State) (key seq : Nat) : State :=
  if s.rxe.nextSeq.getD key 0 = seq then
    let n := skipAhead key s.rxe.skipped.length ((seq + 1) % 2 ^ 32) s.rxe.skipped
    let s1 := { s with rxe := { s.rxe with nextSeq := s.rxe.nextSeq.put key n.1, skipped := n.2 } }
    match s1.rxe.staged.find? (fun h => headerPair h == key && h.seq == n.1) with
    | some h => ({ s1 with rxe := { s1.rxe with staged := s1.rxe.staged.filter (· != h) } }).after_ 1
        (rankArrive (globalName h.srcPeer h.tid)) (.headerArrival h)
    | none => s1
  else { s with rxe := { s.rxe with skipped := s.rxe.skipped ++ [(key, seq)] } }

/-- Whether a number of a pair has been bound, queued or abandoned. -/
def State.numberTaken (s : State) (key seq : Nat) : Bool :=
  let d := (s.rxe.nextSeq.getD key 0 + 2 ^ 32 - seq) % 2 ^ 32
  (0 < d && d < 2 ^ 31) || s.rxe.skipped.contains (key, seq)

/-- Bytes that land (R269), and packets. -/
def Landing.bytes (l : Landing) : Nat := Nat.min l.hdr.len l.recv.maxlen
def packetCount (ld : Nat) : Nat := Nat.max 1 (unitsOf ld)

/-- Whether another package pushes the payload of a landing. -/
def State.pushed (s : State) (l : Landing) : Bool := l.hdr.kind == .rendezvous && l.hdr.srcPeer != s.ni.peer

/-- Offsets of a payload that packet q of a landing carries. -/
def Landing.offsets (l : Landing) (q : Nat) : List Nat := (List.range (Nat.min 512 (l.bytes - 512 * q))).map (512 * q + ·)

/-- The home at which a byte of a payload lands (R385). -/
def State.landsHome (s : State) (l : Landing) (o : Nat) : Nat := s.homeAt (viewsOnly l.recv.views) l.recv.writer l.recv.dest o

/-- A packet of a landing sets out from a home, with the bytes that another package pushes: a part to each home at which bytes of it land
(R385). -/
def State.setOutPacket (s : State) (l : Landing) (q src latest : Nat) (data : LandPart) : State :=
  let os := l.offsets q
  let homes := if os.isEmpty then [s.landsHome l (512 * q)] else (os.map (s.landsHome l)).eraseDups
  let s1 := { s with rxe := { s.rxe with landings := s.rxe.landings.map (fun (x : Landing) =>
      if x.id = l.id then { x with homes := x.homes ++ homes.map (q, ·) } else x) } }
  homes.foldl (fun st h => st.enginePacket src h (st.plannedKernel l.recv.kernel) ((os.filter (fun o => s.landsHome l o == h)).length) latest
    rankLand (.packetLanding l.id q { data with home := h })) s1

/-- The packets of a landing set out from a home once its status is filled, as far as a streamer has read them (R269, R385), with the
bound of the streamer's request (R394); packets that another package pushes come by themselves, those that have come already land
now. -/
def State.setOut (s : State) (l : Landing) (src : Nat) : State :=
  let latest := match s.copies.find? (fun (r : CopyReq) => r.pull == some l.id) with
    | some r => if r.limit = 0 then 0 else Nat.max r.limit (s.ticks + 1)
    | none => 0
  if !l.status then s
  else if s.pushed l then l.held.foldl (fun st p => st.setOutPacket l p.1 (gateHome + s.gate l.hdr.srcPeer) 0 p.2) s
  else (if l.pull then l.packets.filter (fun q => 512 * q < l.hdr.payload.length) else l.packets).foldl (fun st q =>
    st.setOutPacket l q src latest ⟨[], [], 0⟩) s

/-- A landing starts (R385): its status is filled, its payload pulled. -/
def State.startLanding (s : State) (l : Landing) : State :=
  let s1 := s.enginePacket (rxeHome (dieOf l.recv.core)) (clusterOf l.recv.core) (s.plannedKernel l.recv.kernel) 16 0 rankLand
    (.statusFill l.id)
  if l.pull then s1.later 0 rankEngine (.pullRequest (.landing l.id)) else s1

/-- A message is bound to a receive (R385); in a saved context it lands from the restore on (R387). -/
def State.bind (s : State) (r : Recv) (h : Header) (units : Bool) : State :=
  let f := s.fresh
  let live := match s.ctx? h.asid with
    | some c => c.phase == .live
    | none => false
  let l : Landing := { id := f.1, hdr := h, recv := r, status := false,
                       packets := List.range (packetCount (Nat.min h.len r.maxlen)), held := [], homes := [], pull := h.kind = .rendezvous,
                       units := units && h.kind ≠ .rendezvous, started := live, born := s.ticks }
  let s1 := { f.2 with rxe := { f.2.rxe with landings := f.2.rxe.landings ++ [l] } }
  if live then s1.startLanding l else s1

def State.landing? (s : State) (id : Nat) : Option Landing := s.rxe.landings.find? (·.id == id)
def State.setLanding (s : State) (l : Landing) : State :=
  let ls := s.rxe.landings.map (fun x => if x.id = l.id then l else x)
  let done : Bool := l.status && l.packets.isEmpty
  { s with rxe := { s.rxe with landings := ls.filter (fun x => !(x.status && x.packets.isEmpty)) },
           copies := s.copies.filter (fun (r : CopyReq) => !(done && r.pull == some l.id)) }

/-- The landings of messages bound while their context was saved start one behind the other, in order of binding (R387). -/
def State.startNext (s : State) (asid : Nat) : State :=
  match s.rxe.landings.find? (fun l => l.hdr.asid == asid && !l.started) with
  | some l =>
    if (s.ctx? asid).any (fun c => c.phase == .live) && !s.rxe.landings.any (fun x => x.hdr.asid == asid && x.started && x.id < l.id) then
      (s.setLanding { l with started := true }).startLanding { l with started := true }
    else s
  | none => s

/-- The first posted receive that matches, with the list without it (R267). -/
def takePosted (h : Header) : List Recv → List Recv → Option (Recv × List Recv)
  | _, [] => none
  | before, r :: l => if r.matches h then some (r, before ++ l) else takePosted h (before ++ [r]) l

/-- Binds a header to the first posted receive that matches, if there is one. -/
def State.bindPosted (s : State) (h : Header) (units : Bool) : Option State :=
  match takePosted h [] s.rxe.posted with
  | some (r, rest) => some (({ s with rxe := { s.rxe with posted := rest } }).bind r h units)
  | none => none

/-! ### The match units (R381) -/

/-- Entries that a search examines: those up to the first match (log 109). -/
def searched {α : Type} (p : α → Bool) (l : List α) : Nat := match l.findIdx? p with | some i => i + 1 | none => l.length

/-- A unit takes an event that searches n entries, 16 in a tick. -/
def State.unitTakes (s : State) (die n : Nat) : State :=
  { s with rxe := { s.rxe with busy := s.rxe.busy.put die (Nat.max s.ticks (s.rxe.busy.getD die 0) + (n + 15) / 16) } }

/-- Whether a unit takes an event that reaches it now: it is free, and none waits. -/
def State.unitFree (s : State) (die : Nat) : Bool :=
  s.rxe.busy.getD die 0 ≤ s.ticks && !s.rxe.waiting.any (fun w => w.1 == die)

/-- An event reaches a unit: taken when the unit is free, else it waits behind those that wait already. -/
def State.atUnit (s : State) (die : Nat) (w : UnitWork) (k : State → State) : State :=
  if s.unitFree die then k s else { s with rxe := { s.rxe with waiting := s.rxe.waiting ++ [(die, w)] } }

/-- Receives of a header's rank that its search examines. -/
def State.postedSearched (s : State) (h : Header) : Nat :=
  searched (fun r => r.matches h) (s.rxe.posted.filter (fun r => r.asid == h.asid && r.drank == h.drank))

/-- A match unit takes a header of a rank that is here: it is bound, queued, staged or refused (R267, R268, R383, R384, R387, R388). -/
def State.unitHeader (s : State) (c : Ctx) (e : RankEntry) (h : Header) : State :=
  let queue := fun (_ : Unit) =>
    match s.queueRefuses h with
    | none =>
      let h1 := { s.withUnits h with via := none }
      ((({ s with rxe := { s.rxe with unexp := s.rxe.unexp ++ [h1] } }).takeNumber (headerPair h) h.seq).acceptHeader h)
    | some why =>
      s.refuseHeader h { peer := h.srcPeer, pair := headerPair h, seq := h.seq, queue := 1, units := headerUnits h, stage := 0 } why
  if c.level ≠ 0 then queue ()
  else if s.rxe.nextSeq.getD (headerPair h) 0 ≠ h.seq then
    if s.rxe.staged.length + ((s.reserved h).map (·.stage)).sum < 256 then
      { s.unlist h with rxe := { (s.unlist h).rxe with staged := s.rxe.staged ++ [h] } }
    else s.refuseHeader h { peer := h.srcPeer, pair := headerPair h, seq := h.seq, queue := 0, units := 0, stage := 1 } .stageFull
  else if e.transit then queue ()
  else match s.bindPosted h false with
    | some s1 => ((s1.takeNumber (headerPair h) h.seq).acceptHeader h).unitTakes (dieOf e.core) (s.postedSearched h)
    | none => (queue ()).unitTakes (dieOf e.core) (s.postedSearched h)

/-- A header arrives at the receive engine, or is taken from those that wait at its unit (R381, R387); one whose bound has passed is
accepted no more (R264). -/
def State.rxeArrive (s : State) (h : Header) (waited : Bool) : State :=
  match s.ctx? h.asid with
  | none => s
  | some c =>
    if c.phase = .ended || c.phase = .destroying then s.count h.asid 14 1
    else if h.expires < s.ticks && h.via.isNone then s
    else if s.numberTaken (headerPair h) h.seq then s
    else match s.rank? h.drank with
      | none => s.count h.asid 14 1
      | some e =>
        if e.peer ≠ s.ni.peer then s.tell e.peer (.header { h with target := e.peer })
        else if waited then s.unitHeader c e h
        else s.atUnit (dieOf e.core) (.header h) (fun s1 => s1.unitHeader c e h)

/-- The match unit of a header's rank. -/
def State.unitOf (s : State) (h : Header) : Nat := match s.rank? h.drank with | some e => dieOf e.core | none => 0

/-- A match unit takes a header of the unexpected queue, if it still stands there: it is matched against the posted receives. -/
def State.unitStep (s : State) (h : Header) : State :=
  if s.rxe.unexp.contains h && s.rankHere h.drank then
    let s1 := s.unitTakes (s.unitOf h) (s.postedSearched h)
    match s1.bindPosted h true with
    | some s2 => { s2 with rxe := { s2.rxe with unexp := s2.rxe.unexp.filter (· != h) } }
    | none => s1
  else s

/-- Headers of the unexpected queue reach their match units in turn (R381, R384). -/
def State.matchQueued (s : State) (hs : List Header) : State :=
  hs.foldl (fun st h => st.atUnit (st.unitOf h) (.step h) (fun s1 => s1.unitStep h)) s

/-- The eligibility batch of a publication: the headers that the rise from an old mark makes eligible (R384). -/
def State.rxeBatch (s : State) (asid : Nat) (old : W64) : State :=
  match s.ctx? asid with
  | none => s
  | some c => if c.level = 0 then s else s.matchQueued ((s.eligible c).filter (fun h => old.toNat ≤ h.stamp.toNat))

/-- A rank has landed here: the headers held for it are matched (R260, R387). -/
def State.rankLands (s : State) (asid : Nat) (ranks : List Nat) : State :=
  match s.ctx? asid with
  | none => s
  | some c => s.matchQueued ((s.eligible c).filter (fun h => ranks.contains h.drank))

/-- A context ends: its receives, headers and landings are discarded (R387). -/
def State.rxeEnd (s : State) (asid : Nat) : State :=
  { s with
    rxe := { s.rxe with
      posted := s.rxe.posted.filter (fun r => !(r.asid == asid)),
      unexp := s.rxe.unexp.filter (fun h => !(h.asid == asid)),
      staged := s.rxe.staged.filter (fun h => !(h.asid == asid)),
      refusals := s.rxe.refusals.filter (fun r => r.pair / 2 ^ 32 != asid),
      landings := s.rxe.landings.filter (fun l => !(l.hdr.asid == asid)) },
    ni := { s.ni with sends := s.ni.sends.filter (fun m => !(m.hdr.asid == asid)) } }

/-- Sequence numbers of an ASID's pairs start again once it is freed. -/
def State.forgetPairs (s : State) (asid : Nat) : State :=
  let keep := fun (k : Nat) => k / 2 ^ 32 != asid
  { s with
    rxe := { s.rxe with nextSeq := s.rxe.nextSeq.filter (fun e => keep e.1), skipped := s.rxe.skipped.filter (fun e => keep e.1) },
    ni := { s.ni with pairSeq := s.ni.pairSeq.filter (fun e => keep e.1) } }

/-! ### The end of a SEND or MCAST (R264, R274, R281) -/

/-- The thread that waits for a message. -/
def State.waiter? (s : State) (id : Nat) : Option (Thread × List Nat × W64) :=
  s.threads.findSome? (fun e => match e.2.run with
    | .parked (.message ids d) => if ids.contains id then some (e.2, ids, d) else none
    | .parked (.messageStores ids d) => if ids.contains id then some (e.2, ids, d) else none
    | _ => none)

/-- The package to which the header of a record has gone, when it is not this one. -/
def State.farDest (s : State) (m : SendRec) : Option Nat :=
  match m.direct, s.rank? m.hdr.drank with
  | none, some e => if e.peer = s.ni.peer then none else some e.peer
  | _, _ => none

/-- The abandon notice of a header that was not accepted (R264): by its number of the pair. -/
def State.abandonSend (s : State) (m : SendRec) : State :=
  if m.direct.isSome || m.nobody then s
  else match s.farDest m with
    | some p => s.tell p (.abandon m.hdr.asid m.hdr.srank m.hdr.drank ⟨m.hdr.seq, s.ni.peer, m.id⟩)
    | none =>
      ({ s with rxe := { s.rxe with
          staged := s.rxe.staged.filter (fun h => !(headerPair h == headerPair m.hdr && h.seq == m.hdr.seq)),
          refusals := s.rxe.refusals.filter (fun r => !(r.peer == s.ni.peer && r.pair == headerPair m.hdr && r.seq == m.hdr.seq)) } }).later 0
        (rankArrive (globalName m.hdr.srcPeer m.hdr.tid)) (.abandonNotice m.hdr.asid m.hdr.srank m.hdr.drank ⟨m.hdr.seq, s.ni.peer, m.id⟩)

/-- The records of an instruction that are not accepted. -/
def State.openSends (s : State) (ids : List Nat) : List SendRec :=
  s.ni.sends.filter (fun x => ids.contains x.id && !x.accepted)

/-- The bound of an instruction's headers has passed: those not accepted are abandoned; one that another package may have
accepted in time is asked after, at most for the delivery bound (R264, R282). -/
def State.askAfter (s : State) (ids : List Nat) : State :=
  (s.openSends ids).foldl (fun (st : State) x =>
    if x.fate ≠ .underWay || x.nobody then st
    else if x.staged && (st.farDest x).isSome then
      ((st.setSend { x with fate := .asked }).abandonSend x).after_ st.fabric.dbound.toNat rankLast (.sendBoundExpiry x.id)
    else (st.setSend { x with fate := .gone }).abandonSend x) s

/-- When nothing more of an instruction is under way or asked after, and some header was not accepted, the instruction traps, or
its refusal is counted after an overrun (R264, R274, R281). -/
def State.sendFails (s : State) (id : Nat) : State :=
  match s.waiter? id with
  | none => match s.send? id with
    | some m => if m.fate = .gone then s.dropSend id else s
    | none => s
  | some (th, ids, _) =>
    match s.openSends ids with
    | [] => s
    | x :: r =>
      if (x :: r).any (fun y => y.fate != .gone) then s
      else
        let s1 := (x :: r).foldl (fun st y => st.dropSend y.id) s
        if th.ovr then (s1.count th.asid 13 1).wake th.id else s1.trapParked th.id .refused x.name

/-- A header's acceptance is known at the sender: the thread wakes with the last one, or its instruction fails by the others. -/
def State.acceptKnown (s : State) (id : Nat) : State :=
  match s.send? id with
  | none => s
  | some m =>
    let s1 := if m.counted then s.dropSend id else s.setSend { m with accepted := true }
    match s1.waiter? id with
    | none => s1
    | some (th, ids, d) =>
      match ids.filter (· != id) with
      | [] => s1.wake th.id
      | i :: r => (s1.modThread th.id (fun u => { u with run := .parked (.message (i :: r) d) })).sendFails i

/-- The bound of a message has passed, or its package is asked after it no more (R264, R274, R281). -/
def State.sendExpired (s : State) (m : SendRec) : State :=
  if m.accepted then s
  else match m.fate with
    | .underWay => (s.askAfter (match s.waiter? m.id with | some w => w.2.1 | none => [m.id])).sendFails m.id
    | .asked => if s.ticks ≤ m.hdr.expires then s else (s.setSend { m with fate := .gone }).sendFails m.id
    | .gone => s

end Sys2Proof.Machine
end

