-- ==== Sys2Proof/Machine/Copies.lean ====
section
/-! DEFINITION. Bulk copies and pulls: the copy descriptor, streamers, chunks, chunk maps and scale tiles (spec 10 R275
to R280; 17 R370; 19 R389 to R394). -/

namespace Sys2Proof.Machine

/-! ### Descriptors (R275, R277) -/

/-- Bytes of a container of CONV. -/
def CopyReq.container (r : CopyReq) : Nat := if r.planes ≤ 8 then 1 else 2

/-- Bytes of the source. -/
def CopyReq.srcLen (r : CopyReq) : Nat :=
  if r.conv then (if r.half then 64 * r.kb * 32 else 8 * 64 * r.kb) * r.container else r.len

/-- Chunks of the destination. -/
def CopyReq.chunkCount (r : CopyReq) : Nat := (r.len + 511) / 512

/-- The request that a copy descriptor asks for. -/
def copyOf (c : Ctx) (th : Thread) (w : List W64) : CopyReq :=
  let q := fun n => w.getD n 0
  { id := 0, far := none, tileDue := 0, kernel := th.kernel, tid := th.id, asid := th.asid, channel := 0, src := q 0, dst := q 1,
    dcore := localCore th.id.core (q 1), len := fld (q 2) 0 16, map := fld (q 2) 16 4, m0 := 0, fill := bit (q 2) 20,
    conv := bit (q 2) 21, half := bit (q 2) 22, planes := fld (q 2) 23 5, kb := fld (q 2) 28 10, scale := q 3,
    seq := BitVec.ofNat 32 (q 4).toNat,
    slen := if q 3 = 0 then 0 else if fld (q 4) 32 10 = 0 then 1024 else fld (q 4) 32 10,
    after := [], queued := false, active := false, tilePlaced := false, got := [], pois := [], chunks := [], own := true, pull := none,
    views := c.views, span := 0, limit := 0, rowIds := [], born := 0 }

/-- Class 00 or 10 of the issuing package. -/
def plainClass (a : W64) : Bool := !bit a 63 && (fld a 61 2 = 0 || fld a 61 2 = 2)

/-- Reserved bits and limits of a copy descriptor (R258, step 2). -/
def copyIllegal (w : List W64) (r : CopyReq) : Bool :=
  fld (w.getD 2 0) 38 26 ≠ 0 || fld (w.getD 4 0) 42 22 ≠ 0 || r.len % 8 ≠ 0 || r.len < 8 || 32768 < r.len ||
    !plainClass r.src || bit r.dst 63 || fld r.dst 61 2 ≠ 1 || fld r.dst 0 18 % 512 ≠ 0 ||
    (r.conv && (r.planes < 1 || 16 < r.planes || r.kb < 1 || r.len ≠ (if r.half then 256 else 64) * r.planes * r.kb)) ||
    (!r.conv && (r.planes ≠ 0 || r.kb ≠ 0)) ||
    (r.scale ≠ 0 && !plainClass r.scale) || (r.scale = 0 && fld (w.getD 4 0) 32 10 ≠ 0)

/-- The map of the destination core (R35). -/
def State.chunkMap (s : State) (core n : Nat) : ChunkMap := (s.core core).maps.getD n ChunkMap.zero
def State.putMap (s : State) (core n : Nat) (m : ChunkMap) : State :=
  s.modCore core (fun c => { c with maps := c.maps.setD n m ChunkMap.zero })

/-- Steps 2 to 4 of R258 for COPY: the first failure; of the addresses that step 3 looks at SRC comes first, then DST, then SCALE (log 128). -/
def State.copyFault (s : State) (c : Ctx) (core : Nat) (a : W64) (w : List W64) (r : CopyReq) : Option (Cause × W64) :=
  if copyIllegal w r then some (.illegal, a)
  else
    match s.rangeFault c core r.src r.srcLen true false with
    | some k => some (k, r.src)
    | none =>
      match s.rangeFault c core r.dst r.len false true with
      | some k => some (k, r.dst)
      | none =>
        match s.rangeFault c core r.scale r.slen true false with
        | some k => some (k, r.scale)
        | none =>
          let base := (s.chunkMap r.dcore r.map).base.toNat
          let first := fld r.dst 0 18 / 512
          if first < base || base + 64 < first + r.chunkCount then some (.illegal, a) else none

/-! ### Requests at a streamer (R276, R389 to R394) -/

/-- Requests that a streamer holds. -/
def State.atStreamer (s : State) (ch : Nat) : List CopyReq := s.copies.filter (fun c => c.queued && c.channel == ch)

def State.copy? (s : State) (id : Nat) : Option CopyReq := s.copies.find? (·.id == id)
def State.setCopy (s : State) (r : CopyReq) : State :=
  { s with copies := s.copies.map (fun x => if x.id = r.id then r else x) }
def State.dropCopy (s : State) (id : Nat) : State := { s with copies := s.copies.filter (fun x => !(x.id == id)) }

/-- The channel of the first byte of a source (R276, R385). -/
def State.sourceChannel (s : State) (c : Ctx) (core : Nat) (a : W64) : Nat :=
  channelOf (keyOfLocs [s.ploc core (locOf c core a 0)])

/-- The home of a channel's streamer. -/
def streamerHome (ch : Nat) : Nat := Config.clusters + ch

/-- The request of a COPY travels to its streamer (R276, R389). -/
def State.sendCopy (s : State) (r : CopyReq) : State :=
  s.enginePacket (clusterOf r.tid.core) (streamerHome r.channel) (s.plannedKernel r.kernel) 64 0 rankEngine (.copyRequestArrival r.id)

/-- A copy takes its entry: its request leaves once the issuer's earlier stores are performed (R259, R276). -/
def State.startCopy (s : State) (t : Tid) (r : CopyReq) : State :=
  match s.thread? t with
  | none => s
  | some th =>
    let f := s.fresh
    let r1 := { r with id := f.1, born := s.ticks, after := (th.sbuf.filter (fun e => e.held.isNone)).map (·.id) }
    let s1 := { f.2 with copies := f.2.copies ++ [r1] }
    if r1.after.isEmpty then s1.sendCopy r1 else s1

/-- Copies whose earlier stores are all performed set out (R259). -/
def State.goCopies (s : State) : State :=
  let left := fun (r : CopyReq) => r.after.filter (fun i => s.threads.any (fun e => e.2.sbuf.any (fun x => x.id == i)))
  s.copies.foldl (fun st r =>
    if r.after.isEmpty then st
    else
      let st1 := st.setCopy { r with after := left r }
      if (left r).isEmpty then st1.sendCopy r else st1) s

/-- The bound of a request from its acceptance (R394). -/
def State.copyBound (s : State) (r : CopyReq) : Nat :=
  1200 + (r.slen + 15) / 16 + (((s.atStreamer r.channel).map CopyReq.srcLen).sum + 63) / 64

/-- A matrix instruction of a row runs while copies land in its cores: their bound grows by its worst case, once (R394). -/
def State.extendCopies (s : State) (row id ticks : Nat) : State :=
  { s with copies := s.copies.map (fun r =>
      if r.queued && r.dcore / 4 = row && !r.rowIds.contains id then
        { r with rowIds := r.rowIds ++ [id], limit := if r.limit = 0 then 0 else r.limit + ticks,
                 span := if r.limit = 0 then r.span + ticks else r.span }
      else r) }

/-- A request reaches its streamer: it is accepted behind those that wait there, or refused and retried 64 ticks later (R389). A
copy, and a pull into local store, has its bound from here on (R394). -/
def State.offerCopy (s : State) (r : CopyReq) : State :=
  if 512 ≤ (s.atStreamer r.channel).length then s.after_ 64 rankEngine (.streamerRetry r.id)
  else
    let r1 := { r with queued := true }
    let s1 := { s with copies := s.copies.filter (fun x => !(x.id == r.id)) ++ [r1] }
    if r.far.isNone && (r.pull.isNone || (!bit r.dst 63 && fld r.dst 61 2 = 1)) then s1.setCopy { r1 with limit := s.ticks + s1.copyBound r } else s1

/-! ### Scale tiles (R242, R370, R392) -/

/-- The lowest offset of a section at which n bytes are free (R370). -/
def sectionRoom (ts : List Tile) (n : Nat) : Option Nat :=
  if 8 ≤ ts.length then none else lowestBase 1024 n (ts.map (fun t => (t.off, t.bytes.length)))

/-- The NaN code of a copy's scale format (R392): 0x7F for E4M3, whose blocks hold 16 elements, else 255, E8M0. The block size follows
from SLEN and the k-blocks of a converting copy; a copy that does not convert names no k-blocks, and 255 reads as a NaN in both formats
(log 116). -/
def CopyReq.nanByte (r : CopyReq) : Byte :=
  if r.conv && r.slen * 16 = (if r.half then 32 else 8) * (64 * r.kb) then 0x7F else 0xFF

/-- Scale bytes as they are sent: a poisoned byte is the NaN code of its format (R392). -/
def State.scaleBytes (s : State) (r : CopyReq) : List Byte × Nat :=
  let ps := (locsOf (viewsOnly r.views) r.tid.core r.scale r.slen).map (s.ploc r.tid.core)
  (ps.map (fun p => if p.cells.any s.mem.poisoned then r.nanByte else s.mem.readP p),
    ((ps.flatMap PLoc.cells).eraseDups.filter s.mem.poisoned).length)

/-- Places the tile of a copy in its section when there is room; a tile with the number and half of a valid tile waits
(R370). -/
def State.placeTile (s : State) (r : CopyReq) : Option State :=
  let ts := (s.row (r.dcore / 4)).tiles.filter (fun t => t.col == r.dcore % 4)
  if ts.any (fun t => t.seq == r.seq && t.half == r.half) then none
  else match sectionRoom ts r.slen with
    | none => none
    | some off =>
      let b := s.scaleBytes r
      let t : Tile := { col := r.dcore % 4, seq := r.seq, half := r.half, off := off, bytes := b.1 }
      some (((s.modRow (r.dcore / 4) (fun w => { w with tiles := w.tiles ++ [t] })).count r.asid 5 b.2).count r.asid 8 b.2)

/-- A copy held for room gives up its place in progress: it has limit 0 and keeps what is left of its bound in span (R392, R394). -/
def State.holdCopy (s : State) (r : CopyReq) : State :=
  if r.limit = 0 then s.setCopy { r with tileDue := 0 }
  else s.setCopy { r with active := false, tileDue := 0, limit := 0, span := r.limit - s.ticks }

/-- A tile arrives at its section. -/
def State.tileArrives (s : State) (r : CopyReq) : State :=
  if r.tilePlaced then s
  else match s.placeTile r with
    | none => s.holdCopy r
    | some s1 => s1.setCopy { r with tilePlaced := true, limit := if r.limit = 0 then s.ticks + r.span else r.limit }

/-- A streamer that has read a tile asks for the side band of the row: it is granted in order of request, to one streamer at a time, and
carries 16 bytes in a tick (R370, R409). Without room in the section the copy is held (R392). -/
def State.askBand (s : State) (r : CopyReq) : State :=
  let row := r.dcore / 4
  match s.placeTile r with
  | none => s.holdCopy r
  | some _ =>
    let due := Nat.max s.ticks (s.row row).band + (r.slen + 15) / 16
    ((s.modRow row (fun w => { w with band := due })).setCopy { r with tileDue := due }).sched_ due rankEngine (.scaleTilePlace r.id)

/-- Room appears in the sections of a row: held copies try again, in order of acceptance (R392). -/
def State.retryTiles (s : State) (row : Nat) : State :=
  s.copies.foldl (fun st r =>
    if r.queued && !r.tilePlaced && r.scale != 0 && r.dcore / 4 == row &&
        !s.sched.timers.any (fun t => t.2.2 == .scaleTilePlace r.id)
    then st.sched_ st.ticks rankEngine (.scaleTilePlace r.id) else st) s

/-! ### Chunks (R232, R276 to R278, R390, R391, R393) -/

/-- The element whose bit p is bit t of a word of the destination, as an index of containers (R232, R277). -/
def CopyReq.elemOf (r : CopyReq) (word t : Nat) : Nat :=
  let rows := if r.half then 32 else 8
  let k := word % (r.kb * rows) / rows * 64 + t
  if r.half then k * 32 + word % rows else word % rows * (64 * r.kb) + k

/-- The plane of a word. -/
def CopyReq.planeOf (r : CopyReq) (word : Nat) : Nat := word / (r.kb * (if r.half then 32 else 8))

/-- The source bytes that byte o of the destination is formed from. -/
def CopyReq.sources (r : CopyReq) (o : Nat) : List Nat :=
  if r.conv then (List.range 8).flatMap (fun i =>
    (List.range r.container).map (fun j => r.elemOf (o / 8) (o % 8 * 8 + i) * r.container + j))
  else [o]

/-- A source byte as the streamer reads it. -/
def State.copyByte (s : State) (r : CopyReq) (o : Nat) : PLoc :=
  s.ploc r.tid.core (locOf (viewsOnly r.views) r.tid.core r.src o)

/-- The place of a source byte in the order in which the streamer reads: ascending, or k-block by k-block of an A quarter (R390,
R391). -/
def CopyReq.placeOf (r : CopyReq) (o : Nat) : Nat :=
  if r.conv && !r.half then
    let c := r.container
    let k := o / c % (64 * r.kb)
    k / 64 * (512 * c) + o / (64 * r.kb * c) * (64 * c) + k % 64 * c + o % c
  else o

/-- The source byte at a place of that order. -/
def CopyReq.atPlace (r : CopyReq) (p : Nat) : Nat :=
  if r.conv && !r.half then
    let c := r.container
    p % (512 * c) / (64 * c) * (64 * r.kb * c) + p / (512 * c) * (64 * c) + p % (64 * c)
  else p

/-- A source byte as it was read, and whether it was poisoned. -/
def CopyReq.byteRead (r : CopyReq) (o : Nat) : Byte × Bool :=
  let p := r.placeOf o
  (((r.got[p / 512]?).bind (fun t => t.data.find? (fun e => e.1 == p % 512))).map (·.2)).getD (0, false)

/-- Turns that are whole, with all those before them. -/
def CopyReq.whole (r : CopyReq) : Nat := (r.got.takeWhile (fun t => t.away.isEmpty)).length

/-- Byte o of the destination. -/
def CopyReq.byteOut (r : CopyReq) (o : Nat) : Byte :=
  if r.conv then
    let p := r.planeOf (o / 8)
    (List.range 8).foldl (fun (b : Byte) i =>
      setBit b i ((r.byteRead (r.elemOf (o / 8) (o % 8 * 8 + i) * r.container + p / 8)).1.getLsbD (p % 8))) 0
  else (r.byteRead o).1

/-- Bytes of a chunk. -/
def CopyReq.chunkLen (r : CopyReq) (c : Nat) : Nat := Nat.min 512 (r.len - 512 * c)

/-- Places of the source up to which a chunk's bytes are formed: with CONV, whole k-blocks (R391). -/
def CopyReq.needs (r : CopyReq) (c : Nat) : Nat :=
  if r.conv then
    let rows := if r.half then 32 else 8
    (List.range (r.chunkLen c / 8)).foldl (fun m i =>
      Nat.max m (((64 * c + i) % (r.kb * rows) / rows + 1) * (64 * rows * r.container))) 0
  else 512 * c + r.chunkLen c

/-- Whether everything that a chunk is formed from has been read. -/
def CopyReq.ready (r : CopyReq) (c : Nat) : Bool := r.needs c ≤ Nat.min r.srcLen (512 * r.whole)

/-- Sets the bit of a chunk (R36); a clear in the same tick comes before it. -/
def ChunkMap.mark (m : ChunkMap) (now n : Nat) (landed : Bool) : ChunkMap :=
  let l := if m.lastTick = now then m.lastLanded else 0
  let p := if m.lastTick = now then m.lastPoisoned else 0
  if landed then { m with landed := m.landed ||| at_ 1 n, lastTick := now, lastLanded := l ||| at_ 1 n, lastPoisoned := p }
  else { m with poisoned := m.poisoned ||| at_ 1 n, lastTick := now, lastLanded := l, lastPoisoned := p ||| at_ 1 n }

/-- CMAP: a landing of its own tick survives the clear (R36, R279). -/
def ChunkMap.clear (m : ChunkMap) (now : Nat) (base : BitVec 9) : ChunkMap :=
  { m with base := base, landed := if m.lastTick = now then m.lastLanded else 0,
           poisoned := if m.lastTick = now then m.lastPoisoned else 0 }

/-- A chunk lands, or is dropped when its source is poisoned (R278, R390, R393). -/
def State.landChunk (s : State) (r : CopyReq) (c : Nat) : State :=
  let x := viewsOnly r.views
  let n := r.chunkLen c
  let bad := ((List.range n).flatMap (fun i => r.sources (512 * c + i))).any (fun o => (r.byteRead o).2)
  let off := fld r.dst 0 18 + 512 * c
  let a : W64 := at_ 1 61 ||| at_ r.dcore 48 ||| at_ off 0
  let s1 :=
    if !bad then
      (s.engineWrite x r.tid.core a ((List.range n).map (fun i => r.byteOut (512 * c + i))) r.fill).putMap r.dcore r.map
        ((s.chunkMap r.dcore r.map).mark s.ticks (r.m0 + c) true)
    else
      let cells := (((locsOf x r.tid.core a n).map (s.ploc r.tid.core)).flatMap PLoc.cells).eraseDups
      ((cells.foldl (fun st k => st.setFull k false) s).putMap r.dcore r.map
        ((s.chunkMap r.dcore r.map).mark s.ticks (r.m0 + c) false)).count r.asid 9 1
  let left := r.chunks.filter (· != c)
  if left.isEmpty then (s1.dropCopy r.id).tryRetire r.kernel else s1.setCopy { r with chunks := left }

/-! ### The streamers in one tick (R389 to R394) -/

/-- Whether source bytes of a request are still to read. -/
def CopyReq.reading (r : CopyReq) : Bool := 512 * r.got.length < r.srcLen

/-- Whether a copy is held for scale room (R392). -/
def CopyReq.held (r : CopyReq) : Bool := r.scale != 0 && !r.tilePlaced && r.limit == 0

/-- The bytes of a turn of a request that lie at a port, by place in the turn. -/
def State.turnPlaces (s : State) (r : CopyReq) (n port : Nat) : List (Nat × PLoc) :=
  (List.range (Nat.min 512 (r.srcLen - 512 * n))).filterMap (fun i =>
    let l := locOf (viewsOnly r.views) r.tid.core r.src (r.atPlace (512 * n + i))
    if s.portAt r.tid.core l = port then some (i, s.ploc r.tid.core l) else none)

/-- The ports at which the bytes of a turn lie. -/
def State.turnPorts (s : State) (r : CopyReq) (n : Nat) : List Nat :=
  ((List.range (Nat.min 512 (r.srcLen - 512 * n))).map (fun i =>
    s.portAt r.tid.core (locOf (viewsOnly r.views) r.tid.core r.src (r.atPlace (512 * n + i))))).eraseDups

/-- The port of a streamer's channel. -/
def streamerPort (ch : Nat) : Nat := Config.cores + ch

/-- Bytes of a turn are read at a port (R34, R361, R362, R389, R390). -/
def State.readTurn (s : State) (r : CopyReq) (n port : Nat) : CopyReq × State :=
  let l := s.turnPlaces r n port
  let x := s.readPlaces l
  let r1 := { r with got := r.got.mapIdx (fun i t => if i = n then { t with data := t.data ++ x.1 } else t),
                     pois := r.pois ++ x.2.map (512 * n + ·) }
  let s1 := (s.setCopy r1).count r.asid 8 x.2.length
  (r1, if l.isEmpty then s1 else s1.mayCorrect r.asid (keyOfLocs (l.map (·.2))))

/-- The bytes of a turn, and the offsets in the payload at which poisoned cells begin. -/
def CopyReq.turnPart (r : CopyReq) (n : Nat) : LandPart :=
  let t := r.got.getD n ⟨[], []⟩
  { bytes := (List.range (Nat.min 512 (r.srcLen - 512 * n))).map (fun i => ((t.data.find? (fun e => e.1 == i)).map (·.2.1)).getD 0),
    pois := r.pois.filter (fun o => o / 512 == n), home := 0 }

/-- A turn of a pull is whole: its packet sets out once the status is filled (R269), or goes to the package that pulls (R385). -/
def State.pullTurn (s : State) (r : CopyReq) (n : Nat) : State :=
  let x := r.turnPart n
  match r.pull, r.far with
  | none, some p => s.tell p.peer (.payload p.landing n x.bytes x.pois)
  | none, none => s
  | some i, _ =>
    match s.landing? i with
    | none => s.dropCopy r.id
    | some l =>
      let l1 := { l with hdr := { l.hdr with payload := l.hdr.payload ++ x.bytes, pois := l.hdr.pois ++ x.pois } }
      let s1 := s.setLanding l1
      if l.status then s1.setOutPacket l1 n (streamerHome r.channel) r.limit ⟨[], [], 0⟩ else s1

/-- Whether all source bytes of a request are at its streamer. -/
def CopyReq.allRead (r : CopyReq) : Bool := !r.reading && r.whole == r.got.length

/-- What a request has whole now and had not before: its turns go on in order, and the chunks formed from them set out and land by the
limit (R390, R394); after the last byte of a pull the sender hears of it (R385). -/
def State.goTurns (s : State) (old new : CopyReq) : State :=
  let s1 := ((List.range new.whole).drop old.whole).foldl (fun st n => st.pullTurn new n) s
  let done : Bool := new.allRead && !old.allRead
  let s2 := if done && new.far.isSome then s1.dropCopy new.id else s1
  match new.pull.bind (fun i => (s1.landing? i).map (·.hdr.sendId)), new.far with
  | some id, _ => if done then s2.after_ 1 rankEngine (.rendezvousPullRead id new.len) else s2
  | none, some p => if done then s2.after_ 1 rankEngine (.rendezvousPullRead p.sendId new.len) else s2
  | none, none => if new.pull.isSome then s2 else
    (new.chunks.filter (fun c => new.ready c && !old.ready c)).foldl (fun st c =>
      st.enginePacket (streamerHome new.channel) (clusterOf new.dcore) (st.plannedKernel new.kernel) 512 new.limit rankLand
        (.chunkLanding new.id c)) s2

/-- A turn of a request: what lies in the streamer's own channel is read; the rest is asked for at the ports that hold it, by packets of
the general class, or read at once when its bound has come (R389, R390, R394). -/
def State.takeTurn (s : State) (r : CopyReq) (now : Bool) : State :=
  let own := streamerPort r.channel
  let n := r.got.length
  let ports := s.turnPorts r n
  let away := if now then [] else ports.filter (· != own)
  let r0 := { r with got := r.got ++ [(⟨[], away⟩ : CopyTurn)] }
  let r1 := { r0 with active := r0.reading }
  let x := (ports.filter (fun p => !away.contains p)).foldl (fun (y : CopyReq × State) p => y.2.readTurn y.1 n p) (r1, s.setCopy r1)
  (away.foldl (fun st p => st.portPacket own p false (st.plannedKernel r.kernel) 8 0 0 rankEngine false (.read r.id n)) x.2).goTurns r x.1

/-- A port reads bytes of a streamer's turn, and sends them to the streamer (R390). -/
def State.readAsked (s : State) (id n port : Nat) : State :=
  match s.copy? id with
  | none => s
  | some r =>
    if (r.got[n]?).any (fun t => t.away.contains port) then
      (s.readTurn r n port).2.portPacket port (streamerPort r.channel) false (s.plannedKernel r.kernel) 512 0 0 rankEngine false (.readBack id n)
    else s

/-- Bytes of a turn come from a port. -/
def CopyReq.cameFrom (r : CopyReq) (n port : Nat) : CopyReq :=
  { r with got := r.got.mapIdx (fun i t => if i = n then { t with away := t.away.filter (· != port) } else t) }

/-- Bytes of a turn are back at the streamer (R390). -/
def State.readCame (s : State) (id n port : Nat) : State :=
  match s.copy? id with
  | none => s
  | some r => (s.setCopy (r.cameFrom n port)).goTurns r (r.cameFrom n port)

/-- Whether the bytes of a turn have been read at a port. -/
def State.hasRead (s : State) (r : CopyReq) (n port : Nat) : Bool :=
  (s.turnPlaces r n port).all (fun e => (r.got[n]?).any (fun t => t.data.any (fun d => d.1 == e.1)))

/-- What is under way between a streamer and other ports is there at once. -/
def State.readAway (s : State) (r : CopyReq) : State :=
  (List.range r.got.length).foldl (fun st n =>
    (((r.got[n]?).map (·.away)).getD []).foldl (fun st p => match st.copy? r.id with
      | some x => (if st.hasRead x n p then st else (st.readTurn x n p).2).readCame r.id n p
      | none => st) st) s

/-- All that is left of a request is read. -/
def State.readRest (id : Nat) : Nat → State → State
  | 0, s => s
  | n + 1, s => match s.copy? id with
    | some r => if r.reading then State.readRest id n (s.takeTurn r true) else s
    | none => s

/-- Requests come into progress in order of acceptance while fewer than 8 are; the scale bytes of a copy are read (R389, R392). -/
def State.fillPlaces (s : State) (ch : Nat) : State :=
  let q := (s.atStreamer ch).filter CopyReq.reading
  ((q.filter (fun r => !r.active && !r.held)).take (8 - (q.filter (·.active)).length)).foldl (fun st r =>
    let st1 := st.setCopy { r with active := true }
    if r.scale != 0 && !r.tilePlaced && r.tileDue = 0 then st1.later 300 rankEngine (.scaleTilePlace r.id) else st1) s

/-- Whether the bound of some request leaves no time for waits of those ahead of it, at 64 bytes in a tick (R394). -/
def pressed (now : Nat) : Nat → List CopyReq → Bool
  | _, [] => false
  | ahead, r :: l =>
    let n := ahead + (r.srcLen - 512 * r.got.length) / 64 + 2
    (r.limit ≠ 0 && r.limit ≤ now + n + 200) || pressed now n l

/-- The request that takes the turn: the oldest in progress that does not wait (R389). -/
def State.turnOf (s : State) (press : Bool) : List CopyReq → Option CopyReq × State
  | [] => (none, s)
  | r :: l =>
    if r.scale != 0 && !r.tilePlaced then s.turnOf press l
    else if press then (some r, s)
    else
      let d := s.draw 2
      if d.1 = 0 then (some r, d.2) else d.2.turnOf press l

/-- A streamer in one tick (R389): a turn of n bytes takes at most n / 64 ticks. What is left of a request at its bound is read
at once (R394, log 112). -/
def State.channelTurn (s : State) (ch : Nat) : State :=
  let q := (s.atStreamer ch).filter CopyReq.reading
  let s1 := s.fillPlaces ch
  match (s.atStreamer ch).find? (fun r => r.limit != 0 && r.limit ≤ s.ticks + 1 && (r.reading || r.whole < r.got.length)) with
  | some r =>
    let s2 := if r.scale != 0 && !r.tilePlaced then s1.tileArrives r else s1
    match s2.copy? r.id with
    | some x => if x.held then s2 else State.readRest r.id (r.srcLen / 512 + 1) (s2.readAway x)
    | none => s2
  | none =>
    if s.ticks < s.turns.getD ch 0 then s1
    else
      let x := s1.turnOf (pressed s.ticks 0 q) (((s1.atStreamer ch).filter CopyReq.reading).filter (·.active))
      match x.1 with
      | none => x.2
      | some r =>
        let d := x.2.draw ((Nat.min 512 (r.srcLen - 512 * r.got.length) + 63) / 64)
        ({ d.2 with turns := d.2.turns.put ch (s.ticks + 1 + d.1) }).takeTurn r false

/-- The streamers at the end of a tick. -/
def State.streamTick (s : State) : State :=
  if s.copies.isEmpty then s
  else
    let chans := ((s.copies.filter (·.queued)).map (·.channel)).eraseDups
    let s1 := chans.foldl State.channelTurn s
    { s1 with turns := s1.turns.filter (fun e => chans.contains e.1) }

end Sys2Proof.Machine
end

