-- ==== Sys2Proof/Machine/Sync.lean ====
section
/-! DEFINITION. What a parked thread waits for is looked at again: the conditions of each wait (spec 07 R173, R192 to R194;
08 R201; 10 R259, R271, R276, R280). -/

namespace Sys2Proof.Machine

/-- The stores that a FENCE issued now waits for: held stores follow it in order, whenever they are released (R192, R286,
R301). -/
def Thread.fenceStores (th : Thread) : List Nat := (th.sbuf.filter (·.held.isNone)).map (·.id)

/-- Whether the conditions of a FENCE hold (R192, R193): parked loads are performed already. -/
def State.fenceReady (s : State) (th : Thread) (kind : FenceKind) (cpy msg mx : Bool) (stores : List Nat) : Bool :=
  (kind == .load || !th.sbuf.any (fun e => stores.contains e.id)) &&
    (!cpy || !s.copies.any (fun c => c.own && c.pull.isNone && c.tid == th.id)) &&
    (!msg || !s.ni.sends.any (fun m => m.own && m.hdr.tid == th.id && !m.counted)) &&
    (!mx || !s.rows.any (fun r => r.2.queue.any (fun f => f.tids.contains th.id)))

/-- The tick at which a FENCE.SC announced in this tick completes (R194, R410). -/
def scDue (now : Nat) (scope : Scope) : Nat :=
  if scope = .dom then 2048 * (now / 2048 + 3) else 32 * (now / 32 + 2)

/-- A FENCE whose conditions hold completes; FENCE.SC is announced first (R194). -/
def State.fenceDone (s : State) (t : Tid) (kind : FenceKind) (scope : Scope) : State :=
  if kind = .sc then
    (s.modThread t (fun th => { th with run := .parked (.scFence (scDue s.ticks scope)) })).sched_ (scDue s.ticks scope)
      rankLast (.scFenceComplete t)
  else s.wake t

/-! ### A thread that migrates away (R321) -/

/-- Ranks that a thread owns: those that map to its core. -/
def State.ranksOf (s : State) (core : Nat) : List Nat :=
  s.ni.ranks.filterMap (fun e => if bit e.2 24 && fld e.2 0 11 = s.ni.peer && fld e.2 11 13 = core then some e.1 else none)

/-- Writes a rank-table entry here, and sends it to every other package. -/
def State.setRank (s : State) (rank : Nat) (e : W64) : State :=
  s.otherPeers.foldl (fun st p => st.tell p (.rank rank e)) { s with ni := { s.ni with ranks := s.ni.ranks.setD rank e 0 } }

/-- What the new receive engine of a rank has still to take of a pair: its next number, the lowest of the headers held here, which
are forwarded to it, and the numbers behind it that are bound or abandoned already (R263, R264, R387). -/
def State.takeFrom (s : State) (key : Nat) : Nat × List Nat :=
  let next := s.rxe.nextSeq.getD key 0
  let held := (s.rxe.unexp.filter (fun h => headerPair h == key)).map (·.seq)
  let behind := fun (n : Nat) => (next + 2 ^ 32 - n) % 2 ^ 32
  let far := (held.filter (fun n => behind n < 2 ^ 31)).foldl (fun m n => Nat.max m (behind n)) 0
  let low := (next + 2 ^ 32 - far) % 2 ^ 32
  (low, ((List.range far).map (fun i => (low + i) % 2 ^ 32)).filter (fun n => !held.contains n) ++
    (s.rxe.skipped.filter (·.1 == key)).map (·.2))

/-- The numbers of the pairs to which ranks of a context belong (R263, R264). -/
def State.rankPairs (s : State) (asid : Nat) (ranks : List Nat) : List (Nat × Nat × Nat × List Nat) :=
  let mine := fun (k : Nat) => k / 2 ^ 32 == asid && (ranks.contains (k / 2 ^ 16 % 2 ^ 16) || ranks.contains (k % 2 ^ 16))
  (((s.ni.pairSeq.map (·.1)) ++ (s.rxe.nextSeq.map (·.1))).eraseDups.filter mine).map (fun k =>
    (k, s.ni.pairSeq.getD k 0, s.takeFrom k))

/-- The numbers of its ranks' pairs come with a thread: a pair's next number to send with its source rank, the numbers to take with
its destination rank (R263, R264, R383). -/
def State.takePairs (s : State) (ranks : List Nat) (l : List (Nat × Nat × Nat × List Nat)) : State :=
  l.foldl (fun st p =>
    let st1 := if ranks.contains (p.1 / 2 ^ 16 % 2 ^ 16) then
        { st with ni := { st.ni with pairSeq := st.ni.pairSeq.put p.1 p.2.1 } }
      else st
    if ranks.contains (p.1 % 2 ^ 16) then
      { st1 with rxe := { st1.rxe with nextSeq := st1.rxe.nextSeq.put p.1 p.2.2.1,
                                       skipped := st1.rxe.skipped.filter (fun x => x.1 != p.1) ++ p.2.2.2.map (fun n => (p.1, n)) } }
    else st1) s

/-- The small context of a thread. -/
def smallCtx (s : State) (th : Thread) : SmallCtx :=
  { home := (s.ni.peer, th.id), landed := none, asid := th.asid, kernel := th.kernel, ranks := s.ranksOf th.id.core,
    pc := th.insn, xs := th.x.toList.take th.xsize, ms := th.m.toList, fms := th.fm.toList, fcsr := th.csr.fcsr,
    vtime := th.csr.vtime, tvec := th.csr.tvec, tepc := th.csr.tepc, tcause := th.csr.tcause, tval := th.csr.tval,
    tsave := th.csr.tsave, chk := th.csr.chk, feretry := th.csr.feretry.toNat, detlvl := th.csr.detlvl.toNat,
    wheelCount := ((List.range 64).filter (bit th.wheel)).length, gap := th.gapUntil,
    detCount := (match th.run with | .parked (.transit _ a) => if detAmo th a then th.detCount - 1 else th.detCount | _ => th.detCount), cap := th.cap, cancel := th.cancel,
    pairs := s.rankPairs th.asid (s.ranksOf th.id.core), back := false }

/-- A small context sets out for its target: another package, or a core of this one after a free time (R321). -/
def State.sendContext (s : State) (peer : Nat) (m : SmallCtx) : State :=
  if peer = s.ni.peer then s.later 0 rankEngine (.migrationLanding m) else s.tell peer (.context m)

/-- The small context leaves once the store buffer is empty, and the slot is free (R321, steps 1 to 3). -/
def State.shipThread (s : State) (t : Tid) (peer : Nat) : State :=
  match s.thread? t with
  | none => s
  | some th0 =>
    let th := th0.landAll
    if th.sbuf.isEmpty then
      let acc := match th.run with | .parked (.transit _ a) => a | _ => { lanes := [], dst := .v 0, pte := false, limit := 0, bounded := false, ownDue := 0 }
      let x : Transit := { ctx := smallCtx s th, peer := peer, xbase := th.xbase, wheel := th.wheel, acc := acc }
      let s1 := if peer = s.ni.peer then s else s.modCtx th.asid Ctx.spanning
      (((({ s1 with threads := s.threads.erase (tkey t), ni := { s.ni with transits := s.ni.transits ++ [x] } }).disown t).sendContext
        peer x.ctx)).retryDispatch
    else s.putThread th

/-- Looks again at what a parked thread waits for. -/
def State.poll (s : State) (t : Tid) : State :=
  match s.thread? t with
  | none => s
  | some th =>
    match th.run with
    | .parked (.ownStores a) =>
      if a.lanes.any (fun l => isRelease l.op) && (!th.storesDone || s.mxReads t s.sched.ids) then s
      else if a.lanes.any (fun l => s.storesToCells th l.op l.locs) then s
      else s.sendAccess t a
    | .parked (.storeFull e) =>
      if 32 ≤ th.sbuf.length then s
      else
        let s1 := (s.addStore t e).wake t
        if e.rel then s1.after_ (th.sbuf.filter (·.rel)).length rankClose (.heldStoreRelease t e.id) else s1
    | .parked (.fence k sc cpy msg mx ids) => if s.fenceReady th k cpy msg mx ids then s.fenceDone t k sc else s
    | .parked (.mbwait ctr n _) =>
      let v := (s.core t.core).mail.getD ctr 0
      if n ≤ v.toNat then
        (s.modCore t.core (fun c => { c with mail := c.mail.setD ctr (v - BitVec.ofNat 32 n) 0 })).wake t
      else s
    | .parked (.cwait map mask d) =>
      let m := s.chunkMap t.core map
      if (m.landed ||| m.poisoned) &&& mask = mask then s.wakeX t d (m.poisoned &&& mask) else s
    | .parked (.messageStores ids d) => s.goMessage t ids d
    | .parked (.copyFull r) => if s.copiesOf t.core < 64 then (s.startCopy t r).wake t else s
    | .parked (.gbar g tide false) => s.gbarArrives t g tide
    | .parked .exitDrain => if th.sbuf.isEmpty then s.freeSlot t else s
    | .parked (.transit p _) => s.shipThread t p
    | _ => s

/-- Threads parked in MBWAIT, in the order in which they parked (R271). -/
def insertSince (n : Nat) (t : Tid) : List (Nat × Tid) → List (Nat × Tid)
  | [] => [(n, t)]
  | (m, u) :: r => if n < m then (n, t) :: (m, u) :: r else (m, u) :: insertSince n t r

def State.mailWaiters (s : State) : List Tid :=
  ((s.threads.filterMap (fun e => match e.2.run with
    | .parked (.mbwait _ _ n) => some (n, e.2.id)
    | _ => none)).foldl (fun l p => insertSince p.1 p.2 l) []).map (·.2)

/-- Whether a wait is on a mailbox counter or a chunk map: it is looked at again at the end of each tick. -/
def Wait.onCount : Wait → Bool
  | .mbwait _ _ _ | .cwait _ _ _ => true
  | _ => false

def State.countWaits (s : State) (t : Tid) : Bool := (s.waiting? t).any Wait.onCount

/-- Looks again at every parked thread, in ascending name, but for waits on counters and maps. -/
def State.pollAll (s : State) : State :=
  ((s.threads.map (·.2.id)).filter (fun t => !s.countWaits t)).foldl State.poll s.goCopies

/-- The tests that end a tick, after its clears and landings: MBWAITs in the order in which they parked, then CWAITs (R36, R271,
R280). -/
def State.tickTests (s : State) : State :=
  let mb := s.mailWaiters
  (mb ++ (s.threads.map (·.2.id)).filter (fun t => !mb.contains t && s.countWaits t)).foldl State.poll s

/-- Whether another thread waits on a counter of a core: it is examined first (R271). -/
def State.mailTaken (s : State) (core ctr : Nat) : Bool :=
  s.threads.any (fun e => e.2.id.core == core && match e.2.run with | .parked (.mbwait n _ _) => n == ctr | _ => false)

/-- A store-buffer entry is freed, and what waited for it goes on (R173); a GBAR that arrives may complete a phase, and others then
arrive in the next (R204). -/
def State.freed (s : State) (t : Tid) (id : Nat) : State :=
  let s1 := (s.freeEntry t id).goCopies
  match s1.waiting? t with
  | some (.gbar _ _ false) => s1.pollAll
  | some w => if w.onCount then s1 else s1.poll t
  | none => s1

/-- An entry whose parts are all performed and acknowledged is freed; parts that waited for others set out (R159, R173, R399). -/
def State.settleEntry (s : State) (t : Tid) (e : StoreEntry) : State :=
  if e.parts.all (·.acked) then s.freed t e.id
  else
    let s1 := s.modThread t (·.setEntry e)
    if e.parts.all (·.out) then s1 else s1.sendEntry t e

/-- A timer of an event is taken back. -/
def State.cancelTimer (s : State) (e : Instr) : State :=
  { s with sched := { s.sched with timers := s.sched.timers.filter (fun x => x.2.2 != e),
                                   agenda := s.sched.agenda.filter (· != e) } }

/-- The waiting full/empty access of a thread leaves its list (R181). -/
def State.leaveWait (s : State) (t : Tid) : State :=
  { (s.cancelTimer (.feRetry t)) with waits := s.waits.filter (fun w => !(w.local_ == some t)) }

end Sys2Proof.Machine
end

