-- ==== Sys2Proof/Machine/MemSync.lean ====
section
/-! DEFINITION. Meanings of the memory, full/empty, atomic and fence instructions and of the events of their accesses
(spec 07; 14 R304, R322, R324; 22 R402, R410). -/

namespace Sys2Proof.Machine

/-! ### Shared operations -/

/-- FERETRY.LIMIT (R27). -/
def Thread.feLimit (th : Thread) : Nat := th.csr.feretry.toNat

/-- A lane, or a part of one, not yet performed. -/
def newLane (lane : Nat) (a : W64) (locs : List ByteLoc) (op : CellOp) (b : Nat) : Lane :=
  { lane := lane, addr := a, locs := locs, op := op, bit := b, sent := none, cover := [], atUnit := false, pois := [], val := none,
    back := false, fail := none }

/-- The parts of a plain access that are performed indivisibly, as offset and size: an access of several elements through a
view is one part per element, a bit-plane word lies in one channel and is one part (R295, R314, R315; log 129). -/
def viewParts (c : Ctx) (a : W64) (n : Nat) : List (Nat × Nat) :=
  if isView a && fld a 47 2 ≠ 3 then
    match c.view? a with
    | some v => if v.e < n then (List.range (n / v.e)).map (fun i => (i * v.e, v.e)) else [(0, n)]
    | none => [(0, n)]
  else [(0, n)]

/-- The parts of a load lane of n bytes that lands at a bit of its destination. -/
def loadLanes (c : Ctx) (core lane : Nat) (a : W64) (n b : Nat) : List Lane :=
  (viewParts c a n).map (fun p =>
    newLane lane (a + BitVec.ofNat 64 p.1) (locsOf c core (a + BitVec.ofNat 64 p.1) p.2) (.load p.2) (b + 8 * p.1))

/-- A part of a buffered store. -/
def newPart (a : W64) (locs : List ByteLoc) (op : CellOp) : StorePart :=
  { addr := a, locs := locs, op := op, out := false, sent := none, done := false, acked := false }

/-- The parts of a store lane of n bytes. -/
def storeLanes (c : Ctx) (core : Nat) (a : W64) (n : Nat) (v : W64) : List StorePart :=
  (viewParts c a n).map (fun p =>
    newPart (a + BitVec.ofNat 64 p.1) (locsOf c core (a + BitVec.ofNat 64 p.1) p.2)
      (.store p.2 (BitVec.ofNat 64 (v.toNat / 2 ^ (8 * p.1) % 2 ^ (8 * p.2)))))

/-- An access of one lane with what the thread captures at issue (R174, R181, R196). -/
def Thread.access (th : Thread) (lanes : List Lane) (dst : LoadDst) : Access :=
  { lanes := lanes, dst := dst, pte := th.pte, limit := th.feLimit, bounded := 0 < th.depth, ownDue := 0 }

/-- A load of a checked address: the thread parks (R174). -/
def State.load (s : State) (th : Thread) (a : W64) (n : Nat) (d : XReg) (signed : Bool) : Effect :=
  let c := s.ctxOf th
  match s.addrFault c th.id.core a n true false .plain with
  | some k => .trap k a
  | none => .ok (s.sendAccess th.id (th.access (loadLanes c th.id.core 0 a n 0) (.x d n signed)))

/-- A store of a checked address goes into the store buffer (R175). -/
def State.storeAt (s : State) (th : Thread) (a : W64) (n : Nat) (op : CellOp) (k : AccKind) (release : Bool) : Effect :=
  let c := s.ctxOf th
  match s.addrFault c th.id.core a n (opRights op).1 (opRights op).2 k with
  | some f => .trap f a
  | none => .ok (s.store th.id (match op with
      | .store _ v => storeLanes c th.id.core a n v
      | _ => [newPart a (locsOf c th.id.core a n) op]) release)

/-- LDS, STS.PUTEMPTY, AMO and CAS: the thread parks, and the access sets out once the thread's buffered stores to the
cell are performed (R173), and PUTEMPTY, a release, once all its earlier stores are (R179, R290). -/
def State.cellAccess (s : State) (th : Thread) (a : W64) (n : Nat) (op : CellOp) (k : AccKind) (d : XReg) : Effect :=
  let c := s.ctxOf th
  match s.addrFault c th.id.core a n (opRights op).1 (opRights op).2 k with
  | some f => .trap f a
  | none =>
    let acc := th.access [newLane 0 a (locsOf c th.id.core a n) op 0] (.x d n false)
    .ok ((s.park th.id (.ownStores acc)).poll th.id)

/-- Size and sign of LD (R174). -/
def ldSize : LdKind → Nat × Bool
  | .b => (1, true) | .h => (2, true) | .w => (4, true) | .d => (8, false) | .bu => (1, false) | .hu => (2, false)
  | .wu => (4, false)

/-- Size of ST (R175). -/
def stSize : StKind → Nat
  | .b => 1 | .h => 2 | .w => 4 | .d => 8

/-- An AMO (R184, R188): at DET1 and DET2 it may not name local store, and takes the issuer's next number. -/
def State.amo (s : State) (th : Thread) (f : AmoOp) (d : XReg) (a b : W64) : Effect :=
  let c := s.ctxOf th
  if th.csr.detlvl = 0 then s.cellAccess th a 8 (.amo f b) .atomic d
  else
    match s.addrFault c th.id.core a 8 true true .atomic with
    | some k => .trap k a
    | none =>
      if !bit a 63 && fld a 61 2 = 1 then .trap .refused a
      else
        let th1 := { th with detCount := th.detCount + 1 }
        (s.putThread th1).cellAccess th a 8 (.amo f b) .atomic d

def amoForm (s : State) (st : Stall) (f : AmoOp) (d a b : XReg) : Host.Outcome State Fault Refusal :=
  issue s st none (.dab d a b 0) (fun s1 th => s1.amo th f d (th.getX a) (th.getX b))

/-! ### The instructions -/

/-- LD (R174). -/
def execLd (st : Stall) (d a : XReg) (k : LdKind) (off : BitVec 7) (s : State) : Host.Outcome State Fault Refusal :=
  issue s st none (.da d a 0) (fun s1 th =>
    s1.load th (addrOff7 (th.getX a) off (ldSize k).1) (ldSize k).1 d (ldSize k).2)

/-- ST (R175): the data register is named in the XD field. -/
def execSt (st : Stall) (d a : XReg) (k : StKind) (off : BitVec 7) (s : State) : Host.Outcome State Fault Refusal :=
  issue s st none (.rd [d, a]) (fun s1 th =>
    s1.storeAt th (addrOff7 (th.getX a) off (stSize k)) (stSize k) (.store (stSize k) (th.getX d)) .plain false)

/-- LDS (R178). -/
def execLds (st : Stall) (d a : XReg) (mode : LdsMode) (off : BitVec 7) (s : State) : Host.Outcome State Fault Refusal :=
  issue s st none (.da d a 0) (fun s1 th =>
    s1.cellAccess th (addrOff7 (th.getX a) off 8) 8
      (match mode with | .waitfull => .waitFull | .take => .take | .peek => .peek) .fe d)

/-- STS (R179): PUTEMPTY parks, FILL and CLEAR take a store-buffer entry. -/
def execSts (st : Stall) (d a : XReg) (mode : StsMode) (off : BitVec 7) (s : State) : Host.Outcome State Fault Refusal :=
  issue s st none (.rd [d, a]) (fun s1 th =>
    let ad := addrOff7 (th.getX a) off 8
    match mode with
    | .fill => s1.storeAt th ad 8 (.fill (th.getX d)) .fe true
    | .clear => s1.storeAt th ad 8 .clear .fe false
    | .putempty => s1.cellAccess th ad 8 (.putEmpty (th.getX d)) .fe 0)

/-- AMO.ADD (R184). -/
def execAmoAdd (st : Stall) (d a b : XReg) (s : State) : Host.Outcome State Fault Refusal := amoForm s st .add d a b
/-- AMO.AND (R184). -/
def execAmoAnd (st : Stall) (d a b : XReg) (s : State) : Host.Outcome State Fault Refusal := amoForm s st .and d a b
/-- AMO.OR (R184). -/
def execAmoOr (st : Stall) (d a b : XReg) (s : State) : Host.Outcome State Fault Refusal := amoForm s st .or d a b
/-- AMO.XOR (R184). -/
def execAmoXor (st : Stall) (d a b : XReg) (s : State) : Host.Outcome State Fault Refusal := amoForm s st .xor d a b
/-- AMO.MIN (R184). -/
def execAmoMin (st : Stall) (d a b : XReg) (s : State) : Host.Outcome State Fault Refusal := amoForm s st .min d a b
/-- AMO.MAX (R184). -/
def execAmoMax (st : Stall) (d a b : XReg) (s : State) : Host.Outcome State Fault Refusal := amoForm s st .max d a b
/-- AMO.SWAP (R184). -/
def execAmoSwap (st : Stall) (d a b : XReg) (s : State) : Host.Outcome State Fault Refusal := amoForm s st .swap d a b
/-- AMO.FADD (R185). -/
def execAmoFadd (st : Stall) (d a b : XReg) (s : State) : Host.Outcome State Fault Refusal := amoForm s st .fadd d a b

/-- CAS: xd holds the expected value (R186). -/
def execCas (st : Stall) (d a b : XReg) (z : CasSize) (s : State) : Host.Outcome State Fault Refusal :=
  let n := match z with | .d => 8 | .w => 4
  issue s st none (.ddab d a b 0) (fun s1 th =>
    s1.cellAccess th (th.getX a) n (.cas n (th.getX d) (th.getX b)) .atomic d)

/-- LDAQ: LD.D that is an acquire (R191); the thread parks, so no later access goes before it, for an observer of any scope
(log 105). -/
def execLdaq (st : Stall) (d a : XReg) (_scope : Scope) (off : BitVec 7) (s : State) : Host.Outcome State Fault Refusal :=
  issue s st none (.da d a 0) (fun s1 th => s1.load th (addrOff7 (th.getX a) off 8) 8 d false)

/-- STRL: ST.D that is a release (R191): it leaves the store buffer once every earlier store is performed, for an
observer of any scope (log 105). -/
def execStrl (st : Stall) (d a : XReg) (_scope : Scope) (off : BitVec 7) (s : State) : Host.Outcome State Fault Refusal :=
  issue s st none (.rd [d, a]) (fun s1 th =>
    s1.storeAt th (addrOff7 (th.getX a) off 8) 8 (.store 8 (th.getX d)) .plain true)

/-- FENCE (R192 to R194). -/
def execFence (st : Stall) (kind : FenceKind) (scope : Scope) (cpy msg mx : Bool) (s : State) :
    Host.Outcome State Fault Refusal :=
  issue s st none .none (fun s1 th => .ok ((s1.park th.id (.fence kind scope cpy msg mx th.fenceStores)).poll th.id))

/-! ### Events of accesses -/

/-- REGISTER_WRITE_LANDING: every landing of the thread that is due (R101). -/
def execRegisterWriteLanding (t : Tid) (s : State) : Host.Outcome State Fault Refusal :=
  .next (s.modThread t (fun th => th.land s.ticks))

/-- DIVIDE_COMPLETE (R107). -/
def execDivideComplete (t : Tid) (s : State) : Host.Outcome State Fault Refusal :=
  .next (match s.waiting? t with
    | some (.divide d v) => s.wakeX t d v
    | _ => s)

/-- FP_DIV_SQRT_COMPLETE: an enabled flag that is raised traps with nothing written (R124, R348). -/
def execFpDivSqrtComplete (t : Tid) (s : State) : Host.Outcome State Fault Refusal :=
  .next (match s.thread? t with
    | none => s
    | some th =>
      match th.run with
      | .parked (.fpEnd ds fl) =>
        if fl &&& th.enables ≠ 0 then
          (s.modThread t (·.apply (.flags (flagBits fl)))).trapParked t .fpexc (fpexcVal fl false)
        else ((s.modThread t (fun u => ds.foldl (fun u d => u.apply d) u.landRegs)).setFlags t s.ticks (flagBits fl)).wake t
      | _ => s)

/-- FPEXC_PARK_END (R124). -/
def execFpexcParkEnd (t : Tid) (s : State) : Host.Outcome State Fault Refusal :=
  .next (match s.waiting? t with
    | some .fpPark => s.wake t
    | _ => s)

/-- LOAD_RESPONSE: lanes of an access at the thread's own store are performed, or the data of a port is back (R174, R302,
R399). -/
def execLoadResponse (r : PortAnswer) (s : State) : Host.Outcome State Fault Refusal :=
  let t := r.tid
  let port := r.port
  .next (match s.thread? t, s.waiting? t with
    | some th, some (.access a) =>
      if port = t.core then s.ownLoad th a
      else
        let a1 := a.markBack t.core (.port port)
        (s.keepAccess t a1).settle t a1
    | _, _ => s)

/-- STORE_PERFORMED: parts of a buffered store in the own store are performed, or a port's acknowledgement is back (R173,
R302, R399). -/
def execStorePerformed (r : PortAnswer) (id : Nat) (s : State) : Host.Outcome State Fault Refusal :=
  let t := r.tid
  let port := r.port
  .next (match s.thread? t with
    | none => s
    | some th =>
      match findEntry id [] th.sbuf with
      | none => s
      | some (_, e) =>
        if port = t.core then
          let x := s.performParts th e .own (e.ownDue ≤ s.ticks)
          if x.1.open_ t.core .own && !(e.ownDue ≤ s.ticks) then
            (x.2.modThread t (·.setEntry x.1)).after_ 1 (rankArrive (globalName s.ni.peer t)) (.storePerformed ⟨t, port⟩ id)
          else x.2.settleEntry t (x.1.ack t.core .own)
        else s.settleEntry t (e.ack t.core (.port port)))

/-- The access of a thread that its place has performed, or ends with a fault, completes: at once at its own store, else once the answer
is back (R181, R188, R399). -/
def State.feEnds (s : State) (t : Tid) (a : Access) (v : W64) (fail : Option Cause) : State :=
  match a.lanes with
  | l :: _ =>
    let a1 := a.setLane 0 { l with val := some v, fail := fail }
    match routeOf t.core l.locs, s.thread? t with
    | .port n, some th => (s.keepAccess t a1).sendBack th n a.bounded 8 th.issuedAt (.data ⟨t, n⟩)
    | _, _ => s.finishAccess t a1
  | [] => s

/-- One examination of a waiting access; counted when it fails (R181). -/
def State.examine (s : State) (w : FeEntry) : State :=
  let s0 := { s with waits := s.waits.filter (fun x => !(x.id == w.id)) }
  let ps := w.locs.map (s.ploc w.issuer)
  match s.performAt ps w.op false with
  | (.value v _, s2) =>
    let s1 := s2.mayCorrect w.asid (keyOfLocs ps)
    let s2 := { s1 with waits := s1.waits.filter (fun x => !(x.id == w.id)) }
    match w.local_, w.remote with
    | some t, _ =>
      match s2.waiting? t with
      | some (.feWait a _) => s2.feEnds t a v none
      | _ => s2
    | none, some r => s2.chanAnswer r (keyOfLocs ps) (.value v)
    | none, none => s2
  | (.fails, _) =>
    if w.limit ≤ w.count + 1 then
      match w.local_, w.remote with
      | some t, _ =>
        match s0.waiting? t with
        | some (.feWait a _) => s0.feEnds t a 0 (some .fetimeout)
        | _ => s0
      | none, some r => s0.chanAnswer r (keyOfLocs ps) .timeout
      | none, none => s0
    else
      ({ s with waits := s.waits.map (fun (x : FeEntry) => if x.id = w.id then { x with count := w.count + 1, last := s.ticks } else x) }).after_
        64 rankFe (.feReexamine w.id)

/-- The waiting accesses that are re-examined in this tick, in the order in which they parked: 64 ticks after the last
examination, or when their cell has changed in the tick before; each once (R180, R181, R304). -/
def State.examineDue (s : State) (cells : List Nat) : State :=
  let changed := cells ++ s.sched.agenda.filterMap (fun e => match e with | .feChangeReexamine c => some c | _ => none)
  s.waits.foldl (fun st w =>
    match st.waits.find? (·.id == w.id) with
    | some x => if x.last < s.ticks && (x.last + 64 ≤ s.ticks || changed.contains (st.feCell x)) then st.examine x else st
    | none => st) s

/-- FE_REEXAMINE: 64 ticks after the last examination (R181). -/
def execFeReexamine (id : Nat) (s : State) : Host.Outcome State Fault Refusal :=
  .next (match s.waits.find? (·.id == id) with
    | some w => if w.last + 64 ≤ s.ticks then s.examineDue [] else s
    | none => s)

/-- FE_CHANGE_REEXAMINE: the waiting accesses of a cell, in the order in which they parked (R180, R181, R304). -/
def execFeChangeReexamine (cell : Nat) (s : State) : Host.Outcome State Fault Refusal := .next (s.examineDue [cell])

/-- A refused access is examined again at its place; the retry counts (R181, R182). -/
def State.feAgain (s : State) (t : Tid) (a : Access) (n : Nat) : State :=
  match a.lanes with
  | l :: _ =>
    let ps := l.locs.map (s.ploc t.core)
    match s.performAt ps l.op a.pte with
    | (.value v _, s1) => (s1.mayCorrect (((s.thread? t).map (·.asid)).getD 0) (keyOfLocs ps)).feEnds t a v none
    | (.fails, _) => if a.limit ≤ n + 1 then s.feEnds t a 0 (some .fetimeout) else s.feFails t a l (n + 1)
  | [] => s

/-- FE_RETRY: a refused access is examined again at its own store, or sets out for its place once more (R182, R399). -/
def execFeRetry (t : Tid) (s : State) : Host.Outcome State Fault Refusal :=
  .next (match s.thread? t, s.waiting? t with
    | some th, some (.feRefused a n) =>
      match a.lanes.head?.map (fun l => routeOf t.core l.locs) with
      | some (.port p) => s.packet th p a.bounded 8 (portTail p ((a.lanes.head?).any (fun l => isView l.addr)) false) (.loadOf t 0)
      | _ => s.feAgain t a n
    | _, _ => s)

/-- DET_ATOMIC_ACCEPT: the unit accepts the update of a thread, or refuses it (R188, R322). -/
def execDetAtomicAccept (t : Tid) (s : State) : Host.Outcome State Fault Refusal :=
  .next (match s.thread? t with
    | none => s
    | some th =>
      match th.run with
      | .parked (.access a) =>
        match a.lanes with
        | l :: _ =>
          match l.op with
          | .amo f b =>
            match s.detAccept th.asid (keyOfLocs (l.locs.map (s.ploc t.core))) f b th.csr.vtime (globalName s.ni.peer t)
                (th.detCount - 1) with
            | none => s.feEnds t a 0 (some .refused)
            | some s1 => s1.feEnds t a 0 none
          | _ => s
        | [] => s
      | _ => s)

/-- Applies one update at its cell: a poisoned cell counts as zero (R188, R323). -/
def State.applyUpdate (s : State) (e : DetEntry) : State :=
  let ps : List PLoc := (List.range 8).map (fun i => .byte (e.cell + i))
  let s1 := if s.mem.poisoned (e.cell / 8) then s.count e.asid 8 1 else s
  (((s1.performAt ps (.amo e.op e.b) false).2).mayCorrect e.asid e.cell |> fun s2 => { s2 with det := s2.det.filter (fun x => !(x.order == e.order)) })

/-- A unit applies its lowest update, one per 2 ticks; then the loads that waited look again (R189, R323). -/
def State.applyUnit (s : State) (channel : Nat) : State :=
  match s.nextUpdate channel with
    | none => s
    | some e =>
      if s.ticks < s.detLast.getD channel 0 + 2 && s.detLast.getD channel 0 ≠ 0 then s.armUnit channel s.ticks
      else
        let s0 := { s with detLast := s.detLast.put channel s.ticks }
        ((s0.applyUpdate e).retryDet).armUnit channel (s.ticks + 2)

/-- DET_ATOMIC_APPLY (R323). -/
def execDetAtomicApply (channel : Nat) (s : State) : Host.Outcome State Fault Refusal := .next (s.applyUnit channel)

/-- SC_FENCE_COMPLETE: the next instruction issues one tick later or after (R410). -/
def execScFenceComplete (t : Tid) (s : State) : Host.Outcome State Fault Refusal :=
  .next (match s.waiting? t with
    | some (.scFence _) => (s.modThread t (fun th => { th with gapUntil := Nat.max th.gapUntil (s.ticks + 1) })).wake t
    | _ => s)

/-- STORELOST is taken for the first lost store of a thread, before the instruction at a code address (R176). -/
def State.reportLost (s : State) (th : Thread) (pc : Nat) : State :=
  match th.lost with
  | [] => s
  | x :: r =>
    ((s.putThread { th with lost := r }).trap th.id .storelost x.2.2 pc).modThread th.id (fun u =>
      { u with entry := u.entry.map (fun e => { e with lost := some x }) })

/-- STORE_LOST: STORELOST is taken at the thread's boundary, in place of the instruction there. A pending trap is abandoned first, 8
ticks after its decision, when the loss was detected since then, or when it is of another kind; the entry of STORELOST then takes its
own time (R176, R348, R349). -/
def execStoreLost (t : Tid) (s : State) : Host.Outcome State Fault Refusal :=
  .next (match s.thread? t with
    | none => s
    | some th =>
      if th.entry.any (fun e => e.hit || (s.sched.cur = some t && e.lost.isNone)) then s.reportLost th.abandon th.abandon.pc
      else if s.sched.cur = some t then s.reportLost th th.pc
      else s)

end Sys2Proof.Machine
end

