-- ==== Sys2Proof/Machine/Packets.lean ====
section
/-! DEFINITION. The queue processor's operations: slots, checks and rejections of packets, completion, placement of launches,
the conditions of a FENCE and the write of a SIGNAL (spec 15 R326 to R335; 22 R403, R404; 26 R461). -/

namespace Sys2Proof.Machine

/-! ### Slots and registers (R326) -/

/-- The words of a list of bytes. -/
def wordsOf : Nat → List Byte → List W64
  | 0, _ => []
  | n + 1, b => BitVec.ofNat 64 (leNat (b.take 8)) :: wordsOf n (b.drop 8)

/-- DRAM bytes as an engine reads them; beyond the package's DRAM they read zero. -/
def State.dramBytes (s : State) (a n : Nat) : List Byte :=
  if a + n ≤ Config.dramBytes then s.mem.readN a n else List.replicate n 0

/-- The eight words of slot i after the head. -/
def State.slotWords (s : State) (r : QueueRec) (i : Nat) : List W64 :=
  let a := r.base.toNat + (r.head + i) % 2 ^ r.log * 64
  wordsOf 8 (if r.loc then s.dramBytes a 64 else hostRead s.host.mem a 64)

/-- Packet types. -/
def packetType (w : W64) : Nat := fld w 0 8

/-- Slots of a packet (R329). -/
def slotsOf (w : W64) : Nat := if packetType w = 2 ∧ 3 < fld w 8 4 then 1 + fld w 8 4 / 4 else 1

/-- Packets lie between HEAD and TAIL. -/
def QueueRec.nonempty (r : QueueRec) : Bool := r.head % 2 ^ r.log != r.tail % 2 ^ r.log

/-- STATE of a queue without a parsed packet: running while packets lie in its ring, else idle (R326; log 131). -/
def QueueRec.restState (r : QueueRec) : BitVec 2 := if r.en && r.nonempty then 1 else 0

/-- The words of the parsed head packet. -/
def QueueRec.words (r : QueueRec) : List W64 := r.packet.getD []

def wordAt (ws : List W64) (n : Nat) : W64 := ws.getD n 0

/-- The parsed head packet completes (R299): HEAD moves past it. -/
def State.completePacket (s : State) (q : Nat) : State :=
  s.modQueue q (fun r =>
    let r1 := { r with head := (r.head + r.slots) % 2 ^ r.log, packet := none, begun := false, req := none, acc := none }
    { r1 with state := r1.restState })

/-- The parsed head packet waits on a condition, or for its completion (R327). -/
def State.packetWaits (s : State) (q : Nat) : State := s.modQueue q (fun r => { r with state := 2 })

/-! ### Rejection (R328) -/

def codeFormat : Nat := 0x01
def codeRange : Nat := 0x02
def codeEntry : Nat := 0x03
def codeVtime : Nat := 0x04
def codeExch : Nat := 0x05
def codePlan : Nat := 0x06
def codePlace : Nat := 0x07
def codeView : Nat := 0x08
def codeXlate : Nat := 0x09
def codeCode : Nat := 0x0A
def codeCancelled : Nat := 0x0B

/-- A record of a queue that no thread caused (R352). -/
def queueRec (now peer kind code asid tag lid head : Nat) : ErrRec :=
  { kind := kind, code := code, first := false, tag := tag, ticks := now, thread := none, asid := asid, origin := peer,
    epc := 0, lid := lid, val := 0, tcause := 0, head := head }

/-- The head packet is rejected: the queue writes a record and halts (R328). -/
def State.rejectPacket (s : State) (q code : Nat) : State :=
  let r := s.queue q
  let ws := r.words
  let lid := if packetType (wordAt ws 0) = 1 then fld (wordAt ws 6) 0 32 else 0
  (s.errorRecord q (queueRec s.ticks s.ni.peer 1 code r.ctx (fld (wordAt ws 0) 32 32) lid r.head)).modQueue q (fun r =>
    { r with packet := none, begun := false, req := none, acc := none, state := 3, code := BitVec.ofNat 8 code })

/-- The bits that the layout of a type leaves zero (R328, R329, R330): masks of words 0 to 7. -/
def layoutMask (t : Nat) : List W64 :=
  let all := BitVec.allOnes 64
  let hdr : W64 := 0xFFFFFFFF000000FF
  match t with
  | 1 => [hdr, 0xFFFFFFFFFFFFFFFC, all, all, 0x1FFFFFFFFF, all, 0xFFFFFFFF, 0]
  | 3 => [hdr, all, all, 0x1FFF, 0, 0, 0, 0]
  | 4 => [hdr, 0xFFFFFFFFFFFFF, 0x7FFFFFFFFF, 0xFFFFF, 0, 0, 0, 0]
  | 5 => [hdr, 0xFFFFFFFFFFFFF, 0, 0x1FFFF, 0, 0, 0, 0]
  | 6 => [hdr, 0x1FFFFFFFFFF, 0xFFFFFFFFFFFF, 0xFFF, 0, 0, 0, 0]
  | 7 => [hdr, all, 0x1FFFFFFFFC, 0, 0, 0, 0, 0]
  | 8 => [hdr, 3, 0, 0, 0, 0, 0, 0]
  | 9 => [hdr, all, 0xFFFF0F, 0, 0, 0, 0, 0]
  | _ => [hdr, 0, 0, 0, 0, 0, 0, 0]

def layoutBad (ws : List W64) : Bool :=
  (ws.zip (layoutMask (packetType (wordAt ws 0)))).any (fun p => p.1 &&& ~~~p.2 ≠ 0)

/-! ### FENCE and SIGNAL addresses (R331) -/

/-- Whether the queue's context may name an address: class 00 within its segments, or global with a valid peer. -/
def State.counterAllowed (s : State) (c : Ctx) (a : W64) (rd wr : Bool) : Bool :=
  if bit a 63 then bit c.features 10 && s.peerValid (peerOf a)
  else fld a 39 25 = 0 && c.segAllows (fld a 0 39) 8 rd wr

/-- Where condition i of a FENCE stands in the words of its slots (R329). -/
def condAt (i : Nat) : Nat := if i < 3 then 1 + 2 * i else 8 * (1 + (i - 3) / 4) + 2 * ((i - 3) % 4)

def condCount (ws : List W64) : Nat := fld (wordAt ws 0) 8 4
def condAddr (ws : List W64) (i : Nat) : W64 := wordAt ws (condAt i) &&& ~~~7
def condCmp (ws : List W64) (i : Nat) : Nat := fld (wordAt ws (condAt i)) 0 3
def condVal (ws : List W64) (i : Nat) : W64 := wordAt ws (condAt i + 1)

/-- The comparison of a counter with VALUE (R329). -/
def fenceHolds (cmp : Nat) (v w : W64) : Bool :=
  match cmp with
  | 0 => v = w
  | 1 => v ≠ w
  | 2 => w.toNat ≤ v.toNat
  | 3 => v.toNat < w.toNat
  | 4 => w.toInt ≤ v.toInt
  | 5 => v.toInt < w.toInt
  | 6 => v &&& w ≠ 0
  | _ => false

/-- The checks of a FENCE (R328, R329, R331). -/
def State.fenceFault (s : State) (c : Ctx) (ws : List W64) : Option Nat :=
  let n := condCount ws
  let used := (List.range (Nat.min n 12)).flatMap (fun i => [condAt i, condAt i + 1])
  if fld (wordAt ws 0) 12 20 ≠ 0 || (List.range ws.length).any (fun i => i ≠ 0 && !used.contains i && wordAt ws i ≠ 0) ||
      (List.range (Nat.min n 12)).any (fun i => condCmp ws i = 7) then some codeFormat
  else if n = 0 || 12 < n || !(List.range n).all (fun i => s.counterAllowed c (condAddr ws i) true false) then some codeRange
  else none

def signalOp (ws : List W64) : Nat := fld (wordAt ws 1) 0 3
def signalHost (ws : List W64) : Bool := bit (wordAt ws 3) 0
def signalIrq (ws : List W64) : Bool := bit (wordAt ws 3) 1
def signalAddr (ws : List W64) : W64 := wordAt ws 1 &&& ~~~7

def State.signalAllowed (s : State) (c : Ctx) (ws : List W64) : Bool :=
  signalHost ws || s.counterAllowed c (signalAddr ws) (signalOp ws = 1) true

/-- The checks of a SIGNAL. -/
def State.signalFault (s : State) (c : Ctx) (ws : List W64) : Option Nat :=
  if layoutBad ws || 2 < signalOp ws || (signalHost ws && signalOp ws ≠ 0) ||
      (!signalIrq ws && fld (wordAt ws 3) 2 11 ≠ 0) then some codeFormat
  else if !s.signalAllowed c ws then some codeRange
  else none

/-- The issuer under which the NI carries a queue's access. -/
def queueTid (q : Nat) : Tid := { core := 8191, slot := q }

/-- An access of a queue's packet to a global address goes to the NI (R331, R433). -/
def State.queueAccess (s : State) (q : Nat) (a : W64) (op : CellOp) : State :=
  let r := s.enqueue (s.queue q).ctx (queueTid q) a op 0 false none none true (some q) true
  (r.2.modQueue q (fun x => { x with req := some r.1, begun := x.begun || packetType (wordAt x.words 0) = 3 })).injectAll

/-- The next condition of the pass is read, or the pass ends: the FENCE completes, or begins its next pass 64 ticks after the
last one began (R331). -/
def State.fenceNext (s : State) (q : Nat) : State :=
  let r := s.queue q
  let ws := r.words
  if r.cond < condCount ws then
    let a := condAddr ws r.cond
    match s.ctx? r.ctx with
    | none => s
    | some c =>
      if c.phase ≠ .live then
        (s.modQueue q (fun x => { x with cond := condCount ws, holds := false })).sched_ (Nat.max (s.ticks + 1) (r.passAt + 64)) rankLand (.fencePacketPass q)
      else if !s.counterAllowed c a true false then s.rejectPacket q codeRange
      else if bit a 63 then s.queueAccess q a (.load 8)
      else (s.modQueue q (fun x => { x with acc := some s.ticks })).later 0 rankLand (.fencePacketPass q)
  else if r.holds && (s.ctx? r.ctx).any (fun c => c.phase == .live) then s.completePacket q
  else s.sched_ (r.passAt + 64) rankLand (.fencePacketPass q)

/-- A pass begins. -/
def State.fenceBegin (s : State) (q : Nat) : State :=
  (s.modQueue q (fun r => { r with state := 2, cond := 0, holds := true, passAt := s.ticks })).fenceNext q

/-- A condition has been read; none: the read was lost. -/
def State.fenceGot (s : State) (q : Nat) (v : Option W64) : State :=
  let r := s.queue q
  let h := match v with
    | some w => fenceHolds (condCmp r.words r.cond) w (condVal r.words r.cond)
    | none => false
  (s.modQueue q (fun r => { r with cond := r.cond + 1, holds := r.holds && h, req := none, acc := none })).fenceNext q

/-- The virtual function whose partition names a queue in its QMASK (R460, R466). -/
def State.queueOwner (s : State) (q : Nat) : Option Nat :=
  (List.find? (fun (e : Nat × VfRec) => match e.2.bound with
    | some p => match s.host.parts.find? p with
      | some r => partHasQueue r q
      | none => false
    | none => false) s.host.vfs).map (·.1)

/-- Sends an MSI-X entry of a function: 0 the PF, 1 + n VF n (R458). -/
def State.interrupt (s : State) (fn vector : Nat) : State := { s with host := { s.host with msix := s.host.msix ++ [(fn, vector)] } }

/-- The write of a SIGNAL is performed: the interrupt of the function that owns the queue follows, and it completes (R331, R458). -/
def State.signalDone (s : State) (q : Nat) : State :=
  let r := s.queue q
  let vf := (s.queueOwner q).getD (match s.ctx? r.ctx with | some c => c.vf | none => 0)
  (if signalIrq r.words then s.interrupt (1 + vf) (fld (wordAt r.words 3) 2 11) else s).completePacket q

/-- What a SIGNAL does at its cell. -/
def signalCell (ws : List W64) : CellOp :=
  match signalOp ws with
  | 0 => .store 8 (wordAt ws 2)
  | 1 => .amo .add (wordAt ws 2)
  | _ => .fill (wordAt ws 2)

/-- The write of a SIGNAL: at host memory, at its channel, or through the NI. -/
def State.signalGo (s : State) (q : Nat) : State :=
  let r := s.queue q
  let a := signalAddr r.words
  match s.ctx? r.ctx with
  | none => s
  | some c =>
    if !s.signalAllowed c r.words then s.rejectPacket q codeRange
    else if signalHost r.words then
      { s with host := { s.host with mem := hostWrite s.host.mem a.toNat (leBytes 8 (wordAt r.words 2).toNat) } }.signalDone q
    else if bit a 63 then s.queueAccess q a (signalCell r.words)
    else (s.performAt ((List.range 8).map (fun i => .byte (a.toNat + i))) (signalCell r.words) false).2.signalDone q

/-- The answer of a packet's global access, or its loss (R331): a miss or a missing right rejects the packet; a lost read of a
FENCE does not hold; a write performed zero times is made again. -/
def State.queueAnswered (s : State) (q : Nat) (key : Nat × Nat) (res : Option GResult) : State :=
  let r := s.queue q
  if r.req ≠ some key then s
  else
    let fence : Bool := packetType (wordAt r.words 0) = 2
    match res with
    | some .noXlate | some .protect => s.rejectPacket q codeRange
    | some (.value v) => if fence then s.fenceGot q (some v) else s.signalDone q
    | some .poisoned => if fence then s.fenceGot q (some 0) else s.signalDone q
    | some .ack => s.signalDone q
    | _ => if fence then s.fenceGot q none else s.signalGo q

/-! ### LAUNCH (R328, R330, R333) -/

/-- The kernel of a LAUNCH (R330). -/
def launchKernel (q asid : Nat) (level : BitVec 2) (ws : List W64) (list : List Nat) : Kernel :=
  { lid := fld (wordAt ws 6) 0 32, queue := q, asid := asid, tag := fld (wordAt ws 0) 32 32, entry := fld (wordAt ws 1) 2 16 * 4,
    xsize := fld (wordAt ws 1) 18 8, vsize := fld (wordAt ws 1) 26 6, wheel := fld (wordAt ws 1) 32 7,
    place := fld (wordAt ws 1) 39 2, exch := fld (wordAt ws 1) 41 4 * 4096, count := fld (wordAt ws 1) 45 19,
    args := wordAt ws 2, vtstart := wordAt ws 3, cap := fld (wordAt ws 4) 0 32, plan := fld (wordAt ws 4) 32 4,
    planen := bit (wordAt ws 4) 36, list := list, detlvl := level, phase := .waiting, cancel := false, placed := [],
    created := 0, dispatchTick := 0 }

/-- One more thread of the kernel on a core, over the threads placed so far. -/
def placeAt (base : Nat → List Occ) (elig : Nat → Bool) (k : Kernel) (acc : Tab (List Occ)) (core : Nat) :
    Option (Occ × Tab (List Occ)) :=
  if elig core then
    let o := (acc.find? core).getD (base core)
    (placeOn o k.xsize k.vsize k.wheel).map (fun p => (p, acc.put core (p :: o)))
  else none

/-- Up to n threads on one core. -/
def fillCore (base : Nat → List Occ) (elig : Nat → Bool) (k : Kernel) (core : Nat) :
    Nat → Tab (List Occ) → List (Nat × Occ) × Tab (List Occ)
  | 0, acc => ([], acc)
  | n + 1, acc =>
    match placeAt base elig k acc core with
    | none => ([], acc)
    | some (o, acc1) =>
      let r := fillCore base elig k core n acc1
      ((core, o) :: r.1, r.2)

/-- PACK: each thread on the lowest-indexed eligible core. -/
def packPlace (base : Nat → List Occ) (elig : Nat → Bool) (k : Kernel) :
    List Nat → Nat → Tab (List Occ) → Option (List (Nat × Occ))
  | _, 0, _ => some []
  | [], _ + 1, _ => none
  | c :: r, n + 1, acc =>
    let f := fillCore base elig k c (Nat.min 64 (n + 1)) acc
    (packPlace base elig k r (n + 1 - f.1.length) f.2).map (fun l => f.1 ++ l)

/-- One pass of SPREAD: one thread on each eligible core. -/
def spreadPass (base : Nat → List Occ) (elig : Nat → Bool) (k : Kernel) :
    List Nat → Nat → Tab (List Occ) → List (Nat × Occ) × Tab (List Occ)
  | [], _, acc => ([], acc)
  | _ :: _, 0, acc => ([], acc)
  | c :: r, n + 1, acc =>
    match placeAt base elig k acc c with
    | none => spreadPass base elig k r (n + 1) acc
    | some (o, acc1) =>
      let p := spreadPass base elig k r n acc1
      ((c, o) :: p.1, p.2)

/-- SPREAD: passes until all are placed. -/
def spreadPlace (base : Nat → List Occ) (elig : Nat → Bool) (k : Kernel) (cores : List Nat) :
    Nat → Nat → Tab (List Occ) → Option (List (Nat × Occ))
  | _, 0, _ => some []
  | 0, _ + 1, _ => none
  | f + 1, n + 1, acc =>
    let p := spreadPass base elig k cores (n + 1) acc
    if p.1.isEmpty then none
    else (spreadPlace base elig k cores f (n + 1 - p.1.length) p.2).map (fun l => p.1 ++ l)

/-- LIST: each thread on the core that the list names. -/
def listPlace (base : Nat → List Occ) (elig : Nat → Bool) (k : Kernel) :
    List Nat → Tab (List Occ) → Option (List (Nat × Occ))
  | [], _ => some []
  | c :: r, acc =>
    match placeAt base elig k acc c with
    | none => none
    | some (o, acc1) => (listPlace base elig k r acc1).map (fun l => (c, o) :: l)

/-- Up to n groups of four threads on one row, one in each column. -/
def fillRow (base : Nat → List Occ) (elig : Nat → Bool) (k : Kernel) (row : Nat) :
    Nat → Tab (List Occ) → List (Nat × Occ) × Tab (List Occ)
  | 0, acc => ([], acc)
  | n + 1, acc =>
    match listPlace base elig k [4 * row, 4 * row + 1, 4 * row + 2, 4 * row + 3] acc with
    | none => ([], acc)
    | some g =>
      let acc1 := g.foldl (fun (a : Tab (List Occ)) p => a.put p.1 (p.2 :: (a.find? p.1).getD (base p.1))) acc
      let r := fillRow base elig k row n acc1
      (g ++ r.1, r.2)

/-- ROWS: groups of four on the lowest-indexed row whose four cores are eligible. -/
def rowsPlace (base : Nat → List Occ) (elig : Nat → Bool) (k : Kernel) :
    List Nat → Nat → Tab (List Occ) → Option (List (Nat × Occ))
  | _, 0, _ => some []
  | [], _ + 1, _ => none
  | w :: r, n + 1, acc =>
    let f := fillRow base elig k w (Nat.min 64 (n + 1)) acc
    (rowsPlace base elig k r (n + 1 - f.1.length / 4) f.2).map (fun l => f.1 ++ l)

/-- The cores of a context's partition, ascending. -/
def State.partCores (s : State) (c : Ctx) : List Nat :=
  match s.partOf c.vf with
  | some r => (List.range Config.cores).filter (fun n => partHasCluster r (clusterOf n))
  | none => []

/-- The placement of a launch under R333, over given occupancy and eligibility, in index order. -/
def placement (cores : List Nat) (base : Nat → List Occ) (elig : Nat → Bool) (k : Kernel) : Option (List (Nat × Occ)) :=
  match k.place with
  | 0 => packPlace base elig k cores k.count []
  | 1 => spreadPlace base elig k cores 64 k.count []
  | 2 => rowsPlace base elig k ((cores.filter (fun n => n % 4 == 0)).map (· / 4)) (k.count / 4) []
  | _ => listPlace base elig k k.list []

/-- Whether the partition could hold the launch when empty (R328, code PLACE). -/
def State.couldHold (s : State) (c : Ctx) (k : Kernel) : Bool :=
  let cores := s.partCores c
  (placement cores (fun _ => []) (fun n => cores.contains n) k).isSome

/-- The placement of a launch at this tick. -/
def State.placeNow (s : State) (c : Ctx) (k : Kernel) : Option (List (Nat × Occ)) :=
  placement (s.partCores c) s.occupied (s.coreOpen c) k

/-- The core indices of a LIST launch, read once (R330). -/
def State.launchList (s : State) (ws : List W64) : List Nat :=
  if fld (wordAt ws 1) 39 2 = 3 then
    let b := s.dramBytes (wordAt ws 5).toNat (2 * fld (wordAt ws 1) 45 19)
    (List.range (fld (wordAt ws 1) 45 19)).map (fun i => leNat ((b.drop (2 * i)).take 2))
  else []

/-- The checks of a LAUNCH, in order of code (R328, R330, R38, R32). -/
def State.launchFault (s : State) (c : Ctx) (ws : List W64) (k : Kernel) : Option Nat :=
  let list := wordAt ws 5
  if layoutBad ws || (k.place ≠ 3 && list ≠ 0) || (!k.planen && k.plan ≠ 0) then some codeFormat
  else if k.xsize % 8 ≠ 0 || k.xsize < 8 || 128 < k.xsize || k.vsize % 2 ≠ 0 || 32 < k.vsize || 64 < k.wheel ||
      8 * 4096 < k.exch || k.count = 0 || 294912 < k.count || (k.place = 2 && k.count % 4 ≠ 0) ||
      (k.place = 3 && !(list.toNat < 2 ^ 39 && c.segAllows list.toNat (2 * k.count) true false)) then some codeRange
  else if !c.loaded k.entry then some codeEntry
  else if k.vtstart.toNat < c.seenLwm.toNat then some codeVtime
  else if !c.rows.isEmpty && c.exch ≠ k.exch then some codeExch
  else if k.detlvl = 2 && k.planen && (s.qp.plans.find? k.plan).isNone then some codePlan
  else if !s.couldHold c k then some codePlace
  else none

/-! ### Slot plans (R403, R404) -/

def planHc (e : W64) : Nat := fld e 0 9
def planStation (e : W64) : Nat := fld e 9 4
def planG0 (e : W64) : Nat := fld e 13 7
def planCount (e : W64) : Nat := fld e 20 7

/-- The ticks of the 65,536-tick cycle that general tick g claims: its place in each frame; frame 682 has ticks 0 to 47. -/
def claimedTicks (g : Nat) : List Nat :=
  (List.range 683).filterMap (fun f => if f < 682 ∨ g < 48 then some (96 * f + g + g / 3) else none)

/-- General ticks of a plan for a station and a home channel, ascending. -/
def pairTicks (es : List W64) (station hc : Nat) : List Nat :=
  (List.range 72).filter (fun g => es.any (fun e =>
    planStation e == station && planHc e == hc && planG0 e ≤ g && g < planG0 e + planCount e))

/-- The largest gap between claimed ticks around the cycle is at most 48: every window of 49 ticks after a claimed tick holds
another one. -/
def gapsFit (gs : List Nat) : Bool :=
  let offs := gs.map (fun g => g + g / 3)
  let tail := (gs.filter (· < 48)).map (fun g => g + g / 3)
  let steps := fun (l : List Nat) => (l.zip (l.drop 1)).all (fun p => p.2 - p.1 ≤ 48)
  match offs, tail with
  | [], _ => true
  | a :: _, [] => steps offs && a + 96 + 64 - offs.getLastD 0 ≤ 48
  | a :: _, b :: _ =>
    steps offs && steps tail && a + 96 - offs.getLastD 0 ≤ 48 && b + 96 - offs.getLastD 0 ≤ 48 &&
      a + 64 - tail.getLastD 0 ≤ 48

/-- The entries of a plan without padding. -/
def planEntries (es : List W64) : List W64 := es.filter (· ≠ 0)

/-- Whether two entries claim a tick of one home channel in common. -/
def planClash (a b : W64) : Bool :=
  planHc a == planHc b && planG0 a < planG0 b + planCount b && planG0 b < planG0 a + planCount a

/-- The checks of a plan's entries (R404). -/
def planFault (es : List W64) : Option Nat :=
  let l := planEntries es
  if es.any (fun e => fld e 27 37 ≠ 0) then some codeFormat
  else if l.any (fun e => 415 < planHc e || 11 < planStation e || 71 < planG0 e || planCount e = 0 ||
      72 < planG0 e + planCount e) then some codeRange
  else if (List.range l.length).any (fun i => (List.range i).any (fun j => planClash (l.getD i 0) (l.getD j 0))) then
    some codeRange
  else if l.any (fun e => !gapsFit (pairTicks l (planStation e) (planHc e))) then some codeRange
  else none

/-- Whether two plans claim a tick in common (R404). -/
def plansClash (a b : List W64) : Bool := (planEntries a).any (fun x => (planEntries b).any (planClash x))

/-- Whether another live DET2 kernel's plan claims a tick of this kernel's plan (R404). -/
def State.planHeld (s : State) (key : Nat) (k : Kernel) : Bool :=
  k.detlvl = 2 && k.planen && s.kernels.any (fun e =>
    e.1 != key && e.2.phase == .dispatched && e.2.detlvl == 2 && e.2.planen &&
      plansClash (s.qp.plans.getD k.plan []) (s.qp.plans.getD e.2.plan []))

/-- The live kernels of a context in the order of the kernel table (R356). -/
def State.kernelTable (s : State) (asid : Nat) : List (Nat × Kernel) :=
  s.kernels.filter (fun e => e.2.asid == asid && e.2.phase == .dispatched)

/-! ### Pre-emption (R335) -/

/-- Whether a context has a live kernel: dispatched and not retired. -/
def State.liveKernels (s : State) (asid : Nat) : List Kernel :=
  ((s.kernels.map (·.2)).filter (fun k => k.asid == asid && k.phase == .dispatched))

/-- A context's priority plus one: the highest PRIO of its queues with a live kernel; 0 when none has one. -/
def State.ctxPrio (s : State) (asid : Nat) : Nat :=
  (s.liveKernels asid).foldl (fun n k => Nat.max n ((s.queue k.queue).prio + 1)) 0

/-- The tick of a context's first dispatch: the least over its kernels, those that have retired among them. -/
def State.firstDispatch (s : State) (asid : Nat) : Nat :=
  match (s.kernels.map (·.2)).filter (fun k => k.asid == asid && k.phase != .waiting && !k.placed.isEmpty) with
  | [] => 0
  | k :: r => r.foldl (fun n x => Nat.min n x.dispatchTick) k.dispatchTick

/-- Inserts a context in the order in which victims are taken. -/
def State.insertVictim (s : State) (a : Nat) : List Nat → List Nat
  | [] => [a]
  | b :: r =>
    if s.ctxPrio a < s.ctxPrio b || (s.ctxPrio a = s.ctxPrio b && s.firstDispatch b < s.firstDispatch a) then a :: b :: r
    else b :: s.insertVictim a r

/-- The contexts of the launch's partition of lower priority, in order. -/
def State.victims (s : State) (c : Ctx) (prio : Nat) : List Nat :=
  (s.ctxs.filter (fun e => e.2.phase == .live && e.1 != c.asid && !e.2.rows.isEmpty && s.ctxPrio e.1 < prio + 1 &&
    (s.host.vfs.getD e.2.vf VfRec.reset).bound == (s.host.vfs.getD c.vf VfRec.reset).bound)).foldl
      (fun l e => s.insertVictim e.1 l) []

/-- The placement of a launch with the rows of some contexts counted as free. -/
def State.placeWithout (s : State) (c : Ctx) (k : Kernel) (gone : List Nat) : Bool :=
  let free := fun (row : Nat) => !(s.row row).mappedOut &&
    !s.ctxs.any (fun e => e.2.phase != .saved && !gone.contains e.1 && e.2.rows.contains row)
  (placement (s.partCores c) (fun n => if c.rows.contains (n / 4) then s.occupied n else [])
    (fun n => s.inPartition c n && (c.rows.contains (n / 4) || free (n / 4))) k).isSome

/-- The shortest run of victims with which the launch can be placed; none when all would not be enough. -/
def State.chooseVictims (s : State) (c : Ctx) (k : Kernel) : List Nat → List Nat → Option (List Nat)
  | taken, [] => if s.placeWithout c k taken then some taken else none
  | taken, v :: r => if s.placeWithout c k taken then some taken else s.chooseVictims c k (taken ++ [v]) r

/-- A launch that waits for resources pre-empts (R335); contexts already being saved count as free. -/
def State.preemptFor (s : State) (c : Ctx) (k : Kernel) : State :=
  let now := (s.ctxs.filter (fun e => e.2.phase == .stopping)).map (·.1)
  match s.chooseVictims c k now (s.victims c (s.queue k.queue).prio) with
  | none => s
  | some l => (l.filter (fun a => !now.contains a)).foldl (fun (st : State) (a : Nat) =>
      st.sched_ st.ticks rankLast (.preemption a)) s

/-! ### Translation tables (R317, R318, R477) -/

/-- The entry addresses of a virtual address at the three levels, given the tables' addresses. -/
def l1Entry (c : Ctx) (va : Nat) : Nat := c.tbl + va / 2 ^ 39 % 8192 * 8
def l2Entry (t va : Nat) : Nat := t + va / 2 ^ 30 % 512 * 8
def l3Entry (t va : Nat) : Nat := t + va / 2 ^ 21 % 512 * 8

/-- The tables that a context's area holds: those that valid pointer entries name. -/
def tablesOf (m : Memory) (c : Ctx) : List Nat :=
  let l2 := (List.range 8192).filterMap (fun i =>
    let e := m.word (c.tbl + 8 * i)
    if bit e 0 then some (tableAddr e) else none)
  l2 ++ l2.flatMap (fun t => (List.range 512).filterMap (fun i =>
    let e := m.word (t + 8 * i)
    if bit e 0 && !bit e 1 then some (tableAddr e) else none))

/-- The lowest free page of the area (R477): pages 0 to 15 hold the level-1 table. -/
def freeTable (m : Memory) (c : Ctx) : Option Nat :=
  let used := tablesOf m c
  ((List.range c.pages).drop 16).findSome? (fun p =>
    let a := c.tbl + 4096 * p
    if used.contains a then none else some a)

/-- The table that an entry points to, taken and cleared when the entry is not valid. -/
def tableAt (m : Memory) (c : Ctx) (entry : Nat) : Option (Nat × Memory) :=
  let e := m.word entry
  if bit e 0 then (if bit e 1 then none else some (tableAddr e, m))
  else match freeTable m c with
    | none => none
    | some a => some (a, (m.writeN a (List.replicate 4096 0)).setWord entry (at_ 1 0 ||| at_ (a / 4096) 12))

/-- The entry that holds, or would hold, the leaf of a virtual address, with the tables it needs. -/
def leafPlace (m : Memory) (c : Ctx) (va : Nat) (big : Bool) : Option (Nat × Memory) :=
  match tableAt m c (l1Entry c va) with
  | none => none
  | some (t2, m1) =>
    if big then some (l2Entry t2 va, m1)
    else match tableAt m1 c (l2Entry t2 va) with
      | none => none
      | some (t3, m2) => some (l3Entry t3 va, m2)

/-- Bytes of a page. -/
def pageBytes (big : Bool) : Nat := if big then 2 ^ 30 else 2 ^ 21

/-- Writes the leaf of one page; none when a valid leaf or a lower table stands there, or the area is full. -/
def pinPage (m : Memory) (c : Ctx) (va frame : Nat) (big : Bool) (rights : W64) : Option Memory :=
  match leafPlace m c va big with
  | none => none
  | some (e, m1) =>
    if bit (m1.word e) 0 then none
    else some (m1.setWord e (at_ 1 0 ||| atB big 1 ||| rights ||| at_ (frame / 2 ^ 21) 21))

/-- The address and the entry of a valid leaf of a size. -/
def leafOf (m : Memory) (c : Ctx) (va : Nat) (big : Bool) : Option (Nat × W64) :=
  let e1 := m.word (l1Entry c va)
  if !bit e1 0 then none
  else
    let a2 := l2Entry (tableAddr e1) va
    let e2 := m.word a2
    if !bit e2 0 || bit e2 1 != big then none
    else if big then some (a2, e2)
    else
      let a3 := l3Entry (tableAddr e2) va
      let e3 := m.word a3
      if bit e3 0 then some (a3, e3) else none

/-- Whether a table of 512 entries holds no valid entry. -/
def emptyTable (m : Memory) (t : Nat) : Bool := (List.range 512).all (fun i => !bit (m.word (t + 8 * i)) 0)

/-- Returns the tables of a virtual address that are left without a valid entry (R477). -/
def returnTables (m : Memory) (c : Ctx) (va : Nat) : Memory :=
  let a1 := l1Entry c va
  let e1 := m.word a1
  if !bit e1 0 then m
  else
    let t2 := tableAddr e1
    let a2 := l2Entry t2 va
    let e2 := m.word a2
    let m1 := if bit e2 0 && !bit e2 1 && emptyTable m (tableAddr e2) then m.setWord a2 0 else m
    if emptyTable m1 t2 then m1.setWord a1 0 else m1

/-- The addresses and entries of every valid leaf of a context, and whether it maps 1 GiB (R318). -/
def leavesOf (m : Memory) (c : Ctx) : List (Nat × W64 × Bool) :=
  let entries := fun (t n : Nat) => ((List.range n).map (fun i => (t + 8 * i, m.word (t + 8 * i)))).filter (fun e => bit e.2 0)
  (entries c.tbl 8192).flatMap (fun e1 => (entries (tableAddr e1.2) 512).flatMap (fun e2 =>
    if bit e2.2 1 then [(e2.1, e2.2, true)]
    else (entries (tableAddr e2.2) 512).map (fun e3 => (e3.1, e3.2, false))))

/-- The first byte of a leaf's frame. -/
def leafFrame (e : W64) : Nat := fld e 21 18 * 2 ^ 21

/-- A leaf becomes invalid, and its frame enters the quarantine with this tick (R325). -/
def State.unpinLeaf (s : State) (a : Nat) (e : W64) (big : Bool) : State :=
  { s.setMem (s.mem.setWord a (e &&& ~~~1)) with
    quarantine := s.quarantine ++ [(leafFrame e, pageBytes big, s.ticks)] }

/-- The frames of the pages that a queue's UNPIN has marked enter the quarantine with the tick of its completion (R325). -/
def State.quarantineMarked (s : State) (q : Nat) : State :=
  { s.modQueue q (fun r => { r with unpins := [] }) with
    quarantine := s.quarantine ++ (s.queue q).unpins.map (fun p => (leafFrame p.2.1, pageBytes p.2.2, s.ticks)) }

/-- Unpins the leaves of a destroyed context as far as the quarantine has room (R325, R468). -/
def State.unpinLeaves (s : State) (c : Ctx) : State :=
  ((leavesOf s.mem c).take (4096 - s.quarantine.length)).foldl
    (fun (st : State) (e : Nat × W64 × Bool) => st.unpinLeaf e.1 e.2.1 e.2.2) s

/-- A destroyed context gives its ASID back once its leaves are unpinned and the SWM exceeds the tick at which its last thread
stopped; its CTXSTAT then reads done (R458, R468). -/
def State.tryFree (s : State) (asid : Nat) (c : Ctx) : State :=
  let s1 := s.unpinLeaves c
  if !(leavesOf s1.mem c).isEmpty || s1.swm ≤ c.stopTick then s1
  else
    let s2 := { s1 with ctxs := s1.ctxs.erase asid, kernels := s1.kernels.filter (fun (e : Nat × Kernel) => e.2.asid != asid) }
    match s2.host.vfs.find? c.vf with
    | some v =>
      if v.ctxstat = 1 && fld v.ctxcmd 2 16 = asid then
        { s2 with host := { s2.host with vfs := s2.host.vfs.put c.vf { v with ctxstat := 2 } } }.interrupt (1 + c.vf) 0
      else s2
    | none => s2

end Sys2Proof.Machine
end

