-- ==== Sys2Proof/Machine/Clock.lean ====
section
/-! DEFINITION. Meanings of the events of the min tree, of the low-water and slack-water marks, and of the ebb (spec 15 R341;
20 R395; 22 R407, R412). -/

namespace Sys2Proof.Machine

/-- The least of a list of words. -/
def leastWord : List W64 → Option W64
  | [] => none
  | w :: r => match leastWord r with
    | none => some w
    | some v => some (if w.toNat ≤ v.toNat then w else v)

/-- The inputs of a context's LWM (R32, R412): its threads here, those in transit from here and those saved, and the start
values of its accepted launches that are not fully created. -/
def State.lwmInputs (s : State) (c : Ctx) : List W64 :=
  (s.threadsOf c.asid).map (·.csr.vtime) ++
  (s.ni.transits.filter (fun x => x.ctx.asid == c.asid && x.ctx.home.1 == s.ni.peer)).map (·.ctx.vtime) ++
  (match c.saved with
    | some v => v.threads.map (·.csr.vtime)
    | none => []) ++
  (s.kernels.filter (fun k => k.2.asid == c.asid &&
    (k.2.phase == .waiting || (k.2.phase == .dispatched && k.2.created < k.2.count)))).map (·.2.vtstart)

/-- Whether a parked thread has something on its way: an access until its answer is back, also while it waits at its place, a
request of a message or receive, or the child of a SPAWN (R412). -/
def Wait.travels : Wait → Bool
  | .access _ | .feWait _ _ | .feRefused _ _ | .transit _ _ | .message _ _ | .rxe _ _ | .spawn _ _ _ => true
  | _ => false

/-- The injection ticks of the accesses in flight on the package (R27, R412). -/
def State.inFlight (s : State) : List Nat :=
  (s.threads.map (·.2)).flatMap (fun th =>
    (match th.run with
      | .parked w => if w.travels then [th.issuedAt] else []
      | _ => []) ++ (th.sbuf.filter (·.sent)).map (·.born)) ++
  (s.ni.out.filter (·.sent)).map (·.req.ts) ++ s.ni.early.map (·.1.ts) ++ s.ni.crossing.map (·.1.ts) ++ s.ni.atUnit.map (·.1.ts) ++
  s.waits.filterMap (fun w => w.remote.map (·.ts)) ++ s.queues.filterMap (fun e => e.2.acc) ++
  s.rxe.unexp.map (·.born) ++ s.rxe.waiting.filterMap (fun w => match w.2 with | .header h => some h.born | _ => none) ++ s.rxe.staged.map (·.born) ++ s.copies.map (·.born) ++ (s.ni.sends.filter (·.staged)).map (·.born) ++ s.rxe.landings.map (·.born)

/-- MIN_TREE_SAMPLE (R341, R412): an empty set leaves the published LWM; with nothing in flight the SWM's sample is the
sample tick. -/
def execMinTreeSample (s : State) : Host.Outcome State Fault Refusal :=
  .next { s with
    ctxs := s.ctxs.map (fun e => (e.1, { e.2 with sample := (leastWord (s.lwmInputs e.2)).getD e.2.lwm })),
    swmSample := s.inFlight.foldl Nat.min s.ticks }

/-- The larger of two words. -/
def largerWord (a b : W64) : W64 := if a.toNat ≤ b.toNat then b else a

/-- The atomic units and the loads that wait for them look at a new LWM: each unit applies one update, and the next 2 ticks
later (R189, R323). -/
def State.wakeUnits (s : State) : State :=
  let chans := (s.det.map (·.channel)).eraseDups
  (chans.foldl State.applyUnit s).retryDet

/-- Destroyed contexts go on being unpinned, and give their ASIDs back (R468). -/
def State.freeAsids (s : State) : State :=
  s.ctxs.foldl (fun (st : State) (e : Nat × Ctx) =>
    if e.2.phase == .destroying then
      let st1 := st.tryFree e.1 e.2
      if (st1.ctx? e.1).isNone then st1.forgetPairs e.1 else st1
    else st) s

/-- LWM_PUBLICATION (R341): the marks rise, the atomic units and the receive engine take them up, quarantined frames and
freed ASIDs go whose tick the SWM exceeds (R325, R384, R468). -/
def execLwmPublication (s : State) : Host.Outcome State Fault Refusal :=
  let s1 := { s with
    swm := Nat.max s.swm s.swmSample,
    ctxs := s.ctxs.map (fun (e : Nat × Ctx) => (e.1, { e.2 with lwm := largerWord e.2.lwm e.2.sample })) }
  let s2 := s1.noteHeld.wakeUnits
  let s3 := s2.ctxs.foldl (fun (st : State) (e : Nat × Ctx) =>
    if e.2.spans then st else st.rxeBatch e.1 ((s.ctx? e.1).getD e.2).seenLwm) s2
  let s4 := { s3 with quarantine := s3.quarantine.filter (fun f => s3.swm ≤ f.2.2) }
  .next s4.freeAsids.retryQueues

/-- DOMAIN_LWM_SAMPLE (R341, R395): the sample of each context is kept, and goes to the other packages when it spans packages; a
package without a live thread or a launch to be created contributes nothing. -/
def execDomainLwmSample (s : State) : Host.Outcome State Fault Refusal :=
  .next (s.ctxs.foldl (fun (st : State) (e : Nat × Ctx) =>
    let own := leastWord (s.lwmInputs e.2)
    let st1 := st.modCtx e.1 (fun c => { c with domSample := own })
    match own with
    | some v => if e.2.spans then st1.otherPeers.foldl (fun a p => a.tell p (.sample e.1 v)) st1 else st1
    | none => st1) s)

/-- DOMAIN_LWM_PUBLICATION: the least over the packages that contribute, never below the last, at a multiple of 1,024: samples
of other packages that come earlier wait for it (R341, R395). -/
def execDomainLwmPublication (asid : Nat) (others : List W64) (s : State) : Host.Outcome State Fault Refusal :=
  .next (match s.ctx? asid with
    | none => s
    | some c0 =>
      let c := c0.spanning
      if s.ticks % 1024 ≠ 0 then s.sched_ (1024 * (s.ticks / 1024 + 1)) rankPublish (.domainLwmPublication asid others)
      else
      let all := c.domSample.toList ++ others
      let v := largerWord c.domLwm ((leastWord all).getD c.domLwm)
      ((s.modCtx asid (fun x => { x with domLwm := v, spans := true })).noteHeld.wakeUnits).rxeBatch asid c0.seenLwm)

/-- EBB_START: from TICKS mod 65,536 = 65,344 the routers' general lane goes along the preset cycle; what is performed, and
in which order, stays (R402, R407). -/
def execEbbStart (s : State) : Host.Outcome State Fault Refusal := .next { s with ebb := true }

/-- EBB_END: normal arbitration resumes (R407). -/
def execEbbEnd (s : State) : Host.Outcome State Fault Refusal := .next { s with ebb := false }

end Sys2Proof.Machine
end

