-- ==== Sys2Proof/Machine/IntAlu.lean ====
section
/-! DEFINITION. The scalar integer instructions (spec 04 R105 to R109). -/

namespace Sys2Proof.Machine

/-- The integer-ALU latency (R100). -/
def latAlu : Nat := 4
/-- The multiply latency (R100). -/
def latMul : Nat := 6

/-- op xd, xa, xb of fixed latency: xd becomes f xa xb (R105, R106). -/
def alu (s : State) (st : Stall) (lat : Nat) (d a b : XReg) (f : W64 → W64 → W64) : Host.Outcome State Fault Refusal :=
  fixedWrites s st none (.dab d a b lat) (fun th => [.x d (f (th.getX a) (th.getX b))])

/-- op xd, xa (R105). -/
def alu1 (s : State) (st : Stall) (d a : XReg) (f : W64 → W64) : Host.Outcome State Fault Refusal :=
  fixedWrites s st none (.da d a latAlu) (fun th => [.x d (f (th.getX a))])

/-! ### The functions of the register operations (R105) -/

/-- A truth value as 1 or 0. -/
def ofBool (b : Bool) : W64 := if b then 1 else 0

/-- xb[5:0]. -/
def shiftAmount (b : W64) : Nat := b.toNat % 64

def aluSll (a b : W64) : W64 := a <<< shiftAmount b
def aluSrl (a b : W64) : W64 := a >>> shiftAmount b
def aluSra (a b : W64) : W64 := a.sshiftRight (shiftAmount b)
def aluSlt (a b : W64) : W64 := ofBool (a.toInt < b.toInt)
def aluSltu (a b : W64) : W64 := ofBool (a.toNat < b.toNat)
def aluMin (a b : W64) : W64 := if a.toInt ≤ b.toInt then a else b
def aluMax (a b : W64) : W64 := if b.toInt ≤ a.toInt then a else b
/-- 0 bits above the highest 1 bit. -/
def aluClz (a : W64) : W64 := BitVec.ofNat 64 (64 - bitLen a.toNat)
/-- 0 bits below the lowest 1 bit. -/
def aluCtz (a : W64) : W64 := BitVec.ofNat 64 (((List.range 64).find? (fun i => bit a i)).getD 64)
def aluPopc (a : W64) : W64 := BitVec.ofNat 64 ((List.range 64).filter (fun i => bit a i)).length
def aluMulh (a b : W64) : W64 := BitVec.ofInt 64 (a.toInt * b.toInt / 2 ^ 64)
def aluMulhu (a b : W64) : W64 := BitVec.ofNat 64 (a.toNat * b.toNat / 2 ^ 64)

/-- Bytes of an extension size (R93). -/
def extBytes : ExtSize → Nat | .b => 1 | .h => 2 | .w => 4

/-- ADD: xa + xb (R105). -/
def execAdd (st : Stall) (d a b : XReg) (s : State) : Host.Outcome State Fault Refusal :=
  alu s st latAlu d a b (· + ·)

/-- SUB: xa − xb (R105). -/
def execSub (st : Stall) (d a b : XReg) (s : State) : Host.Outcome State Fault Refusal :=
  alu s st latAlu d a b (· - ·)

/-- AND (R105). -/
def execAnd (st : Stall) (d a b : XReg) (s : State) : Host.Outcome State Fault Refusal :=
  alu s st latAlu d a b (· &&& ·)

/-- OR (R105). -/
def execOr (st : Stall) (d a b : XReg) (s : State) : Host.Outcome State Fault Refusal :=
  alu s st latAlu d a b (· ||| ·)

/-- XOR (R105). -/
def execXor (st : Stall) (d a b : XReg) (s : State) : Host.Outcome State Fault Refusal :=
  alu s st latAlu d a b (· ^^^ ·)

/-- SLL (R105). -/
def execSll (st : Stall) (d a b : XReg) (s : State) : Host.Outcome State Fault Refusal :=
  alu s st latAlu d a b aluSll

/-- SRL (R105). -/
def execSrl (st : Stall) (d a b : XReg) (s : State) : Host.Outcome State Fault Refusal :=
  alu s st latAlu d a b aluSrl

/-- SRA (R105). -/
def execSra (st : Stall) (d a b : XReg) (s : State) : Host.Outcome State Fault Refusal :=
  alu s st latAlu d a b aluSra

/-- SLT (R105). -/
def execSlt (st : Stall) (d a b : XReg) (s : State) : Host.Outcome State Fault Refusal :=
  alu s st latAlu d a b aluSlt

/-- SLTU (R105). -/
def execSltu (st : Stall) (d a b : XReg) (s : State) : Host.Outcome State Fault Refusal :=
  alu s st latAlu d a b aluSltu

/-- MIN (R105). -/
def execMin (st : Stall) (d a b : XReg) (s : State) : Host.Outcome State Fault Refusal :=
  alu s st latAlu d a b aluMin

/-- MAX (R105). -/
def execMax (st : Stall) (d a b : XReg) (s : State) : Host.Outcome State Fault Refusal :=
  alu s st latAlu d a b aluMax

/-- ANDN (R105). -/
def execAndn (st : Stall) (d a b : XReg) (s : State) : Host.Outcome State Fault Refusal :=
  alu s st latAlu d a b (fun a b => a &&& ~~~b)

/-- CLZ (R105). -/
def execClz (st : Stall) (d a : XReg) (s : State) : Host.Outcome State Fault Refusal :=
  alu1 s st d a aluClz

/-- CTZ (R105). -/
def execCtz (st : Stall) (d a : XReg) (s : State) : Host.Outcome State Fault Refusal :=
  alu1 s st d a aluCtz

/-- POPC (R105). -/
def execPopc (st : Stall) (d a : XReg) (s : State) : Host.Outcome State Fault Refusal :=
  alu1 s st d a aluPopc

/-- SEXT (R105). -/
def execSext (st : Stall) (d a : XReg) (z : ExtSize) (s : State) : Host.Outcome State Fault Refusal :=
  alu1 s st d a (extend (extBytes z) true)

/-- ZEXT (R105). -/
def execZext (st : Stall) (d a : XReg) (z : ExtSize) (s : State) : Host.Outcome State Fault Refusal :=
  alu1 s st d a (extend (extBytes z) false)

/-- CMOV: xd is written in both cases (R105). -/
def execCmov (st : Stall) (d a b : XReg) (s : State) : Host.Outcome State Fault Refusal :=
  fixedWrites s st none (.ddab d a b latAlu)
    (fun th => [.x d (if th.getX b ≠ 0 then th.getX a else th.getX d)])

/-- MUL: the low half (R106). -/
def execMul (st : Stall) (d a b : XReg) (s : State) : Host.Outcome State Fault Refusal :=
  alu s st latMul d a b (· * ·)

/-- MULH: the high half of the signed product (R106). -/
def execMulh (st : Stall) (d a b : XReg) (s : State) : Host.Outcome State Fault Refusal :=
  alu s st latMul d a b aluMulh

/-- MULHU: the high half of the unsigned product (R106). -/
def execMulhu (st : Stall) (d a b : XReg) (s : State) : Host.Outcome State Fault Refusal :=
  alu s st latMul d a b aluMulhu

/-! ### Division (R107) -/

/-- Quotient and remainder of unsigned values, the divisor not zero. -/
def divU (a b : W64) : W64 × W64 := (BitVec.ofNat 64 (a.toNat / b.toNat), BitVec.ofNat 64 (a.toNat % b.toNat))

/-- Quotient and remainder of signed values, truncated toward zero, the divisor not zero; −2^63 by −1 gives −2^63 and 0. -/
def divS (a b : W64) : W64 × W64 :=
  let q := a.toInt.natAbs / b.toInt.natAbs
  let r := a.toInt.natAbs % b.toInt.natAbs
  (BitVec.ofInt 64 (if decide (a.toInt < 0) = decide (b.toInt < 0) then (q : Int) else -(q : Int)),
    BitVec.ofInt 64 (if a.toInt < 0 then -(r : Int) else (r : Int)))

/-- Quotient 0 and remainder the dividend where the divisor is zero. -/
def divide (signed : Bool) (a b : W64) : W64 × W64 :=
  if b = 0 then (0, a) else if signed then divS a b else divU a b

/-- Ticks of an integer divide's park (R100). -/
def parkDiv : Nat := 24

/-- DIV, DIVU, REM, REMU: INTDIV for a zero divisor with FCSR.IDE = 1, else the result 24 ticks after issue (R107). -/
def divideInsn (s : State) (st : Stall) (d a b : XReg) (f : W64 → W64 → W64) : Host.Outcome State Fault Refusal :=
  issue s st none (.dab d a b 0) (fun s1 th =>
    if th.getX b = 0 && bit th.csr.fcsr 16 then .trap .intdiv (th.getX a)
    else .ok ((s1.park th.id (.divide d (f (th.getX a) (th.getX b)))).after_ parkDiv rankLand (.divideComplete th.id)))

/-- DIV (R107). -/
def execDiv (st : Stall) (d a b : XReg) (s : State) : Host.Outcome State Fault Refusal :=
  divideInsn s st d a b (fun x y => (divide true x y).1)

/-- DIVU (R107). -/
def execDivu (st : Stall) (d a b : XReg) (s : State) : Host.Outcome State Fault Refusal :=
  divideInsn s st d a b (fun x y => (divide false x y).1)

/-- REM (R107). -/
def execRem (st : Stall) (d a b : XReg) (s : State) : Host.Outcome State Fault Refusal :=
  divideInsn s st d a b (fun x y => (divide true x y).2)

/-- REMU (R107). -/
def execRemu (st : Stall) (d a b : XReg) (s : State) : Host.Outcome State Fault Refusal :=
  divideInsn s st d a b (fun x y => (divide false x y).2)

/-! ### Immediates and constants (R108, R109) -/

/-- ADDI (R108). -/
def execAddi (st : Stall) (d a : XReg) (imm : BitVec 10) (s : State) : Host.Outcome State Fault Refusal :=
  alu1 s st d a (fun x => x + imm.signExtend 64)

/-- ANDI (R108). -/
def execAndi (st : Stall) (d a : XReg) (imm : BitVec 10) (s : State) : Host.Outcome State Fault Refusal :=
  alu1 s st d a (fun x => x &&& imm.signExtend 64)

/-- ORI (R108). -/
def execOri (st : Stall) (d a : XReg) (imm : BitVec 10) (s : State) : Host.Outcome State Fault Refusal :=
  alu1 s st d a (fun x => x ||| imm.zeroExtend 64)

/-- SLLI (R108). -/
def execSlli (st : Stall) (d a : XReg) (sh : BitVec 6) (s : State) : Host.Outcome State Fault Refusal :=
  alu1 s st d a (fun x => x <<< sh.toNat)

/-- SRLI (R108). -/
def execSrli (st : Stall) (d a : XReg) (sh : BitVec 6) (s : State) : Host.Outcome State Fault Refusal :=
  alu1 s st d a (fun x => x >>> sh.toNat)

/-- SRAI (R108). -/
def execSrai (st : Stall) (d a : XReg) (sh : BitVec 6) (s : State) : Host.Outcome State Fault Refusal :=
  alu1 s st d a (fun x => x.sshiftRight sh.toNat)

/-- LI (R109). -/
def execLi (st : Stall) (d : XReg) (imm : BitVec 17) (s : State) : Host.Outcome State Fault Refusal :=
  fixedWrites s st none (.d d latAlu) (fun _ => [.x d (imm.signExtend 64)])

/-- LIM (R109). -/
def execLim (st : Stall) (d : XReg) (imm : BitVec 16) (s : State) : Host.Outcome State Fault Refusal :=
  fixedWrites s st none (.dd d latAlu) (fun th => [.x d ((th.getX d <<< 16) ||| imm.zeroExtend 64)])

end Sys2Proof.Machine
end

