-- ==== Sys2Proof/Machine/ScalarFp.lean ====
section
/-! DEFINITION. The scalar floating-point instructions (spec 06 R146 to R153). -/

namespace Sys2Proof.Machine

/-- The code of a format that an x register holds: the bits above it are ignored (R119). -/
def floatOf (f : FFmt) (w : W64) : Nat := w.toNat % 2 ^ f.width

/-- The latency of arithmetic and compares (R100). -/
def latFp (f : FFmt) : Nat := if f = FFmt.double then 8 else 6

/-- The park of a divide or root (R100). -/
def parkFp (f : FFmt) : Nat := if f = FFmt.double then 32 else 20

/-- A result in an x register: the bits above the format are zero (R119). -/
def floatReg (r : FRes) : W64 := BitVec.ofNat 64 r.code

/-- op.p xd, xa, xb (R146, R147). -/
def fp2 (s : State) (st : Stall) (f : FFmt) (d a b : XReg) (g : FEnv → Nat → Nat → FRes) :
    Host.Outcome State Fault Refusal :=
  issue s st none (.dab d a b (latFp f)) (fun s1 th =>
    let r := g th.fenv (floatOf f (th.getX a)) (floatOf f (th.getX b))
    fpFinish s1 th (latFp f) false [.x d (floatReg r)] r.fl)

/-- FMA.p: xd is the addend (R146). -/
def fpFma (s : State) (st : Stall) (f : FFmt) (d a b : XReg) : Host.Outcome State Fault Refusal :=
  issue s st none (.ddab d a b (latFp f)) (fun s1 th =>
    let r := f.fma th.fenv (floatOf f (th.getX a)) (floatOf f (th.getX b)) (floatOf f (th.getX d))
    fpFinish s1 th (latFp f) false [.x d (floatReg r)] r.fl)

/-- FDIV and FSQRT park; the result lands, or FPEXC is decided, at the end of the park (R124, R146, R348). -/
def fpPark (s : State) (st : Stall) (f : FFmt) (o : Opnds) (d : XReg) (g : Thread → FRes) :
    Host.Outcome State Fault Refusal :=
  issue s st none o (fun s1 th =>
    .ok ((s1.park th.id (.fpEnd [.x d (floatReg (g th))] (g th).fl)).after_ (parkFp f) rankLand (.fpDivSqrtComplete th.id)))

/-- The result of a compare: −1, 0, 1, or 2 when unordered (R149). -/
def compareCode : Option Ordering → W64
  | some .lt => BitVec.allOnes 64
  | some .eq => 0
  | some .gt => 1
  | none => 2

/-- FCMP raises NV for a signalling NaN, FCMPE for any NaN (R149). -/
def fpCompare (s : State) (st : Stall) (f : FFmt) (sig : Bool) (d a b : XReg) : Host.Outcome State Fault Refusal :=
  issue s st none (.dab d a b (latFp f)) (fun s1 th =>
    let x := floatOf f (th.getX a)
    let y := floatOf f (th.getX b)
    let nv := if sig then f.isNan x || f.isNan y else f.isSnan x || f.isSnan y
    fpFinish s1 th (latFp f) false [.x d (compareCode (f.compare th.fenv x y))] (flagIf nv flNV))

/-- The latency of FCLASS, FROUND and FSGN (R148). -/
def latPrec (p : FPrec) : Nat := if p = .d then 8 else 6

/-- The mode of FROUND (R151). -/
def roundMode (th : Thread) : RoundSel → Rm
  | .rne => .rne | .rtz => .rtz | .rdn => .rdn | .rup => .rup | .rmm => .rmm
  | .dyn => th.fenv.rm

/-- FSGN on a code (R152). -/
def signOp (f : FFmt) (op : SgnOp) (c : Nat) : Nat :=
  match op with
  | .abs => c % f.signBit
  | .neg => f.flip c
  | .nabs => c % f.signBit + f.signBit

/-- FADD.S (R146). -/
def execFaddS (st : Stall) (d a b : XReg) (s : State) : Host.Outcome State Fault Refusal :=
  fp2 s st FFmt.single d a b FFmt.single.add

/-- FSUB.S (R146). -/
def execFsubS (st : Stall) (d a b : XReg) (s : State) : Host.Outcome State Fault Refusal :=
  fp2 s st FFmt.single d a b FFmt.single.sub

/-- FMUL.S (R146). -/
def execFmulS (st : Stall) (d a b : XReg) (s : State) : Host.Outcome State Fault Refusal :=
  fp2 s st FFmt.single d a b FFmt.single.mul

/-- FDIV.S (R146). -/
def execFdivS (st : Stall) (d a b : XReg) (s : State) : Host.Outcome State Fault Refusal :=
  fpPark s st FFmt.single (.dab d a b 0) d
    (fun th => FFmt.single.div th.fenv (floatOf FFmt.single (th.getX a)) (floatOf FFmt.single (th.getX b)))

/-- FSQRT.S (R146). -/
def execFsqrtS (st : Stall) (d a : XReg) (s : State) : Host.Outcome State Fault Refusal :=
  fpPark s st FFmt.single (.da d a 0) d (fun th => FFmt.single.sqrt th.fenv (floatOf FFmt.single (th.getX a)))

/-- FMIN.S (R147). -/
def execFminS (st : Stall) (d a b : XReg) (s : State) : Host.Outcome State Fault Refusal :=
  fp2 s st FFmt.single d a b (fun v x y => FFmt.single.minMax v false x y)

/-- FMAX.S (R147). -/
def execFmaxS (st : Stall) (d a b : XReg) (s : State) : Host.Outcome State Fault Refusal :=
  fp2 s st FFmt.single d a b (fun v x y => FFmt.single.minMax v true x y)

/-- FMA.S (R146). -/
def execFmaS (st : Stall) (d a b : XReg) (s : State) : Host.Outcome State Fault Refusal :=
  fpFma s st FFmt.single d a b

/-- FCMP.S (R149). -/
def execFcmpS (st : Stall) (d a b : XReg) (s : State) : Host.Outcome State Fault Refusal :=
  fpCompare s st FFmt.single false d a b

/-- FCMPE.S (R149). -/
def execFcmpeS (st : Stall) (d a b : XReg) (s : State) : Host.Outcome State Fault Refusal :=
  fpCompare s st FFmt.single true d a b

/-- FADD.D (R146). -/
def execFaddD (st : Stall) (d a b : XReg) (s : State) : Host.Outcome State Fault Refusal :=
  fp2 s st FFmt.double d a b FFmt.double.add

/-- FSUB.D (R146). -/
def execFsubD (st : Stall) (d a b : XReg) (s : State) : Host.Outcome State Fault Refusal :=
  fp2 s st FFmt.double d a b FFmt.double.sub

/-- FMUL.D (R146). -/
def execFmulD (st : Stall) (d a b : XReg) (s : State) : Host.Outcome State Fault Refusal :=
  fp2 s st FFmt.double d a b FFmt.double.mul

/-- FDIV.D (R146). -/
def execFdivD (st : Stall) (d a b : XReg) (s : State) : Host.Outcome State Fault Refusal :=
  fpPark s st FFmt.double (.dab d a b 0) d
    (fun th => FFmt.double.div th.fenv (floatOf FFmt.double (th.getX a)) (floatOf FFmt.double (th.getX b)))

/-- FSQRT.D (R146). -/
def execFsqrtD (st : Stall) (d a : XReg) (s : State) : Host.Outcome State Fault Refusal :=
  fpPark s st FFmt.double (.da d a 0) d (fun th => FFmt.double.sqrt th.fenv (floatOf FFmt.double (th.getX a)))

/-- FMIN.D (R147). -/
def execFminD (st : Stall) (d a b : XReg) (s : State) : Host.Outcome State Fault Refusal :=
  fp2 s st FFmt.double d a b (fun v x y => FFmt.double.minMax v false x y)

/-- FMAX.D (R147). -/
def execFmaxD (st : Stall) (d a b : XReg) (s : State) : Host.Outcome State Fault Refusal :=
  fp2 s st FFmt.double d a b (fun v x y => FFmt.double.minMax v true x y)

/-- FMA.D (R146). -/
def execFmaD (st : Stall) (d a b : XReg) (s : State) : Host.Outcome State Fault Refusal :=
  fpFma s st FFmt.double d a b

/-- FCMP.D (R149). -/
def execFcmpD (st : Stall) (d a b : XReg) (s : State) : Host.Outcome State Fault Refusal :=
  fpCompare s st FFmt.double false d a b

/-- FCMPE.D (R149). -/
def execFcmpeD (st : Stall) (d a b : XReg) (s : State) : Host.Outcome State Fault Refusal :=
  fpCompare s st FFmt.double true d a b

/-- FCLASS: exactly one bit, no flag (R150); it parks for L under an enable (R124, R127). -/
def execFclass (st : Stall) (d a : XReg) (p : FPrec) (s : State) : Host.Outcome State Fault Refusal :=
  issue s st none (.da d a (latPrec p)) (fun s1 th =>
    fpFinish s1 th (latPrec p) false [.x d (at_ 1 ((precFmt p).classBit (floatOf (precFmt p) (th.getX a))))] 0)

/-- FCVT (R153). -/
def execFcvt (st : Stall) (d a : XReg) (src dst : CvtFmt) (sat : Bool) (s : State) : Host.Outcome State Fault Refusal :=
  let lat := if src = .f64 || dst = .f64 then 8 else 6
  issue s st none (.da d a lat) (fun s1 th =>
    fpFinish s1 th lat false [.x d (fcvtValue th.fenv src dst sat (th.getX a)).1]
      (fcvtValue th.fenv src dst sat (th.getX a)).2)

/-- FROUND (R151). -/
def execFround (st : Stall) (d a : XReg) (rm : RoundSel) (p : FPrec) (s : State) : Host.Outcome State Fault Refusal :=
  issue s st none (.da d a (latPrec p)) (fun s1 th =>
    let r := (precFmt p).roundIntegral { th.fenv with rm := roundMode th rm } (floatOf (precFmt p) (th.getX a))
    fpFinish s1 th (latPrec p) false [.x d (floatReg r)] r.fl)

/-- FSGN: only the sign bit changes (R152); it parks for L under an enable (R124, R127). -/
def execFsgn (st : Stall) (d a : XReg) (op : SgnOp) (p : FPrec) (s : State) : Host.Outcome State Fault Refusal :=
  issue s st none (.da d a (latPrec p)) (fun s1 th =>
    fpFinish s1 th (latPrec p) false [.x d (BitVec.ofNat 64 (signOp (precFmt p) op (floatOf (precFmt p) (th.getX a))))] 0)

end Sys2Proof.Machine
end

