-- ==== Sys2Proof/Machine/Vector.lean ====
section
/-! DEFINITION. The vector instructions that do not reach memory (spec 06 R154 to R169). -/

namespace Sys2Proof.Machine

/-! ### Element types (R90) -/

def viWidth : VIType → Nat | .i8 => 8 | .i16 => 16 | .i32 => 32 | .i64 => 64
def eszWidth : ESz → Nat | .b => 8 | .h => 16 | .w => 32 | .d => 64
def vpWidth : VPType → Nat
  | .i8 => 8 | .i16 => 16 | .i32 => 32 | .i64 => 64 | .f16 => 16 | .bf16 => 16 | .f32 => 32 | .f64 => 64
def vpFloat : VPType → Option FFmt
  | .f16 => some .half | .bf16 => some .bf16 | .f32 => some .single | .f64 => some .double
  | .i8 | .i16 | .i32 | .i64 => none

/-- Lanes of a width (R154). -/
def lanesOf (w : Nat) : Nat := 512 / w

/-- The feature bit of the vector instructions (R96). -/
def featVec : Option Nat := some 0

/-- Latencies (R100). -/
def latVInt : Nat := 4
def latVec : Nat := 8

/-! ### Integer lanes (R160) -/

/-- A lane as a signed number. -/
def laneInt (w a : Nat) : Int := if 2 ^ (w - 1) ≤ a then (a : Int) - (2 ^ w : Nat) else a

/-- The low bits of a shift amount. -/
def laneShift (w b : Nat) : Nat := b % w

def laneSra (w a b : Nat) : Nat :=
  (BitVec.ofInt w (laneInt w a / (2 ^ laneShift w b : Nat))).toNat

/-- op.t vd, va, vb, mk: enabled lanes become g of the lanes, modulo 2^w (R160). -/
def vint2 (s : State) (st : Stall) (d a b : VReg) (m : MReg) (t : VIType) (g : Nat → Nat → Nat → Nat) :
    Host.Outcome State Fault Refusal :=
  let w := viWidth t
  fixedWrites s st featVec (.vdab d a b m latVInt) (fun th =>
    [.v d (laneMask w (lanesOf w) (th.getM m))
      (ofLanes w (lanesOf w) (fun i => g w (laneOf w (th.getV a) i) (laneOf w (th.getV b) i)))])

/-! ### Float lanes (R161 to R163) -/

/-- The flags of the enabled lanes (R156). -/
def maskedFlags (n : Nat) (m : W64) (g : Nat → Flags) : Flags := orFlags (fun i => if bit m i then g i else 0) n

/-- op.t vd, va, vb, mk over float lanes (R161). -/
def vfpOp (s : State) (st : Stall) (o : Opnds) (d : VReg) (m : MReg) (t : VFType) (g : Thread → Nat → FRes) :
    Host.Outcome State Fault Refusal :=
  let w := (vfFmt t).width
  issue s st featVec o (fun s1 th =>
    fpFinish s1 th latVec true
      [.v d (laneMask w (lanesOf w) (th.getM m)) (ofLanes w (lanesOf w) (fun i => (g th i).code))]
      (maskedFlags (lanesOf w) (th.getM m) (fun i => (g th i).fl)))

/-- A lane-wise operation of two float vectors. -/
def vfp2 (s : State) (st : Stall) (d a b : VReg) (m : MReg) (t : VFType) (g : FEnv → Nat → Nat → FRes) :
    Host.Outcome State Fault Refusal :=
  vfpOp s st (.vdab d a b m latVec) d m t (fun th i =>
    g th.fenv (laneOf (vfFmt t).width (th.getV a) i) (laneOf (vfFmt t).width (th.getV b) i))

/-- A predicate of VFCMP, and whether NV is raised for any NaN (R162). -/
def predHolds (p : FPred) (o : Option Ordering) : Bool :=
  match p with
  | .eq => o = some .eq
  | .lt => o = some .lt
  | .le => o = some .lt || o = some .eq
  | .un => o = none

def predSignals : FPred → Bool | .lt | .le => true | .eq | .un => false

/-- The low n bits set. -/
def lowMask (n : Nat) : W64 := BitVec.ofNat 64 (2 ^ n - 1)

/-- A mask of n bits. -/
def maskOf (n : Nat) (p : Nat → Bool) : W64 := BitVec.ofNat 64 (packLanes 1 (fun i => if p i then 1 else 0) n)

/-! ### Permutes and reductions (R164, R165) -/

/-- One level of the tree: neighbours are combined, the lower-numbered on the left; an absent input passes the other. -/
def treeLevel {α : Type} (g : α → α → α) : List (Option α) → List (Option α)
  | some a :: some b :: r => some (g a b) :: treeLevel g r
  | some a :: none :: r => some a :: treeLevel g r
  | none :: x :: r => x :: treeLevel g r
  | l => l

/-- The tree of k levels (R165). -/
def tree {α : Type} (g : α → α → α) : Nat → List (Option α) → List (Option α)
  | 0, l => l
  | k + 1, l => tree g k (treeLevel g l)

/-- The root over the enabled lanes. -/
def reduceLanes {α : Type} (n : Nat) (m : W64) (lane : Nat → α) (g : α → α → α) : Option α :=
  ((tree g (Nat.log2 n) ((List.range n).map (fun i => if bit m i then some (lane i) else none))).head?).join

/-- A float reduction: every enabled lane is taken under FCSR.SUB (R126), each node gives its result with the flags gathered
so far, a NaN result is quiet, and NV is raised when an enabled lane is a signalling NaN (R122, R165). -/
def reduceFloat (f : FFmt) (v : FEnv) (n : Nat) (m : W64) (lane : Nat → Nat) (g : Nat → Nat → FRes) (empty : Nat) :
    FRes :=
  match reduceLanes n m (fun i => (⟨f.input v (lane i), 0⟩ : FRes))
    (fun a b => let r := g a.code b.code; ⟨r.code, r.fl ||| a.fl ||| b.fl⟩) with
  | none => ⟨empty, 0⟩
  | some r => ⟨if f.isNan r.code then f.quiet r.code else r.code,
      r.fl ||| flagIf ((List.range n).any (fun i => bit m i && f.isSnan (lane i))) flNV⟩

/-- A float sum: with any enabled NaN lane the result is the lowest-numbered such lane, quieted, whatever a node made
(R129, R165). -/
def reduceSum (f : FFmt) (v : FEnv) (n : Nat) (m : W64) (lane : Nat → Nat) : FRes :=
  let r := reduceFloat f v n m lane (f.add v) 0
  match (List.range n).find? (fun i => bit m i && f.isNan (lane i)) with
  | some i => ⟨f.quiet (lane i), r.fl⟩
  | none => r

/-- A float maximum by maximumNumber (R147, R165). -/
def reduceTop (f : FFmt) (v : FEnv) (n : Nat) (m : W64) (lane : Nat → Nat) : FRes :=
  reduceFloat f v n m lane (f.minMax v true) (f.inf true)

/-- VREDADD and VREDMAX: lane 0 becomes the reduction, every other lane 0 (R164). -/
def vreduce (s : State) (st : Stall) (d a : VReg) (m : MReg) (t : VPType)
    (fg : FFmt → FEnv → Nat → W64 → (Nat → Nat) → FRes) (ig : Nat → Nat → Nat → Nat) (ie : Nat → Nat) :
    Host.Outcome State Fault Refusal :=
  let w := vpWidth t
  let n := lanesOf w
  issue s st featVec (.vda d a m latVec) (fun s1 th =>
    match vpFloat t with
    | some f =>
      let r := fg f th.fenv n (th.getM m) (laneOf w (th.getV a))
      fpFinish s1 th latVec true [.v d (BitVec.allOnes 512) (BitVec.ofNat 512 r.code)] r.fl
    | none =>
      let r := (reduceLanes n (th.getM m) (laneOf w (th.getV a)) (ig w)).getD (ie w)
      .ok (s1.writeReg th.id latVec (.v d (BitVec.allOnes 512) (BitVec.ofNat 512 r))))

/-- Whether a lane counts as nonzero for VMASK: a float type's sign bit is excluded (R164). -/
def laneNonzero (t : VPType) (x : Nat) : Bool :=
  match vpFloat t with
  | some f => x % f.signBit ≠ 0
  | none => x ≠ 0

/-- The immediate of VBCASTI as a lane of its type (R91). -/
def vbcastiLane (imm : BitVec 13) (t : VPType) : Nat :=
  match vpFloat t with
  | some f =>
    (FFmt.half.convert f { rm := .rne, ftz := false, daz := false } (imm.toNat * 8)).code
  | none => (imm.signExtend 64).toNat % 2 ^ vpWidth t

/-! ### Block-scaled dot and conversion (R167 to R169) -/

/-- A byte as a signed number. -/
def s8 (b : Nat) : Int := laneInt 8 b

/-- The exact dot of four bytes of two lanes. -/
def dot4 (a b : V512) (j : Nat) : Int :=
  s8 (laneOf 8 a (4 * j)) * s8 (laneOf 8 b (4 * j)) + s8 (laneOf 8 a (4 * j + 1)) * s8 (laneOf 8 b (4 * j + 1)) +
    s8 (laneOf 8 a (4 * j + 2)) * s8 (laneOf 8 b (4 * j + 2)) + s8 (laneOf 8 a (4 * j + 3)) * s8 (laneOf 8 b (4 * j + 3))

/-- round(lane + dot × sa × sb) with one rounding (R168). DESIGN CHOICE (log 101): a dot of zero counts as +0, so the sign of
a zero product is that of the scales; an infinite scale times a zero raises NV also where a NaN gives the result. -/
def sdotLane (v : FEnv) (dot : Int) (sa0 sb0 c0 : Nat) : FRes :=
  let f := FFmt.single
  let sa := f.input v sa0
  let sb := f.input v sb0
  let c := f.input v c0
  let neg := (decide (dot < 0) != f.neg sa) != f.neg sb
  let zero := dot = 0 || sa % f.signBit = 0 || sb % f.signBit = 0
  let infinite := sa % f.signBit = f.infCode || sb % f.signBit = f.infCode
  match f.nanRule [sa, sb, c] with
  | some r => ⟨r.code, r.fl ||| flagIf (zero && infinite) flNV⟩
  | none =>
    if zero && infinite then f.invalid
    else
      match f.unpack sa, f.unpack sb, f.unpack c with
      | .fin _ ma ea, .fin _ mb eb, .fin nc mc ec => f.addFin v neg (dot.natAbs * ma * mb) (ea + eb) nc mc ec
      | .fin _ _ _, .fin _ _ _, .inf nc => ⟨f.inf nc, 0⟩
      | _, _, .inf nc => if nc = neg then ⟨f.inf nc, 0⟩ else f.invalid
      | _, _, _ => ⟨f.inf neg, 0⟩

/-- The conversion of an exact value to a signed or unsigned integer of w bits (R134). -/
def toIntFormat (rm : Rm) (w : Nat) (sg : Bool) (neg : Bool) (m : Nat) (e : Int) : Int × Flags :=
  let r := roundAt rm neg m e false 0
  let x : Int := if neg then -(r.1 : Int) else r.1
  if x < intMin w sg then (intMin w sg, flNX)
  else if intMax w sg < x then (intMax w sg, flNX)
  else (x, flagIf r.2 flNX)

/-- Lane × scale as SINT(8) (R134, R169). -/
def scvtLane (v : FEnv) (a0 s0 : Nat) : Int × Flags :=
  let f := FFmt.single
  let a := f.input v a0
  let x := f.input v s0
  let neg := f.neg a != f.neg x
  match f.unpack a, f.unpack x with
  | .fin _ ma ea, .fin _ mb eb => toIntFormat v.rm 8 true neg (ma * mb) (ea + eb)
  | .inf _, .fin _ m _ => if m = 0 then (0, flNV) else (if neg then -128 else 127, flNV)
  | .fin _ m _, .inf _ => if m = 0 then (0, flNV) else (if neg then -128 else 127, flNV)
  | .inf _, .inf _ => (if neg then -128 else 127, flNV)
  | _, _ => (0, flNV)

/-! ### The instructions -/

/-- VADD (R160). -/
def execVadd (st : Stall) (d a b : VReg) (m : MReg) (t : VIType) (s : State) : Host.Outcome State Fault Refusal :=
  vint2 s st d a b m t (fun _ x y => x + y)

/-- VSUB (R160). -/
def execVsub (st : Stall) (d a b : VReg) (m : MReg) (t : VIType) (s : State) : Host.Outcome State Fault Refusal :=
  vint2 s st d a b m t (fun w x y => x + 2 ^ w - y)

/-- VMUL (R160). -/
def execVmul (st : Stall) (d a b : VReg) (m : MReg) (t : VIType) (s : State) : Host.Outcome State Fault Refusal :=
  vint2 s st d a b m t (fun _ x y => x * y)

/-- VMIN (R160). -/
def execVmin (st : Stall) (d a b : VReg) (m : MReg) (t : VIType) (s : State) : Host.Outcome State Fault Refusal :=
  vint2 s st d a b m t (fun w x y => if laneInt w x ≤ laneInt w y then x else y)

/-- VMAX (R160). -/
def execVmax (st : Stall) (d a b : VReg) (m : MReg) (t : VIType) (s : State) : Host.Outcome State Fault Refusal :=
  vint2 s st d a b m t (fun w x y => if laneInt w y ≤ laneInt w x then x else y)

/-- VAND (R160). -/
def execVand (st : Stall) (d a b : VReg) (m : MReg) (t : VIType) (s : State) : Host.Outcome State Fault Refusal :=
  vint2 s st d a b m t (fun _ x y => x &&& y)

/-- VOR (R160). -/
def execVor (st : Stall) (d a b : VReg) (m : MReg) (t : VIType) (s : State) : Host.Outcome State Fault Refusal :=
  vint2 s st d a b m t (fun _ x y => x ||| y)

/-- VXOR (R160). -/
def execVxor (st : Stall) (d a b : VReg) (m : MReg) (t : VIType) (s : State) : Host.Outcome State Fault Refusal :=
  vint2 s st d a b m t (fun _ x y => x ^^^ y)

/-- VSLL (R160). -/
def execVsll (st : Stall) (d a b : VReg) (m : MReg) (t : VIType) (s : State) : Host.Outcome State Fault Refusal :=
  vint2 s st d a b m t (fun w x y => x * 2 ^ laneShift w y)

/-- VSRL (R160). -/
def execVsrl (st : Stall) (d a b : VReg) (m : MReg) (t : VIType) (s : State) : Host.Outcome State Fault Refusal :=
  vint2 s st d a b m t (fun w x y => x / 2 ^ laneShift w y)

/-- VSRA (R160). -/
def execVsra (st : Stall) (d a b : VReg) (m : MReg) (t : VIType) (s : State) : Host.Outcome State Fault Refusal :=
  vint2 s st d a b m t (laneSra)

/-- VFADD (R161). -/
def execVfadd (st : Stall) (d a b : VReg) (m : MReg) (t : VFType) (s : State) : Host.Outcome State Fault Refusal :=
  vfp2 s st d a b m t (vfFmt t).add

/-- VFSUB (R161). -/
def execVfsub (st : Stall) (d a b : VReg) (m : MReg) (t : VFType) (s : State) : Host.Outcome State Fault Refusal :=
  vfp2 s st d a b m t (vfFmt t).sub

/-- VFMUL (R161). -/
def execVfmul (st : Stall) (d a b : VReg) (m : MReg) (t : VFType) (s : State) : Host.Outcome State Fault Refusal :=
  vfp2 s st d a b m t (vfFmt t).mul

/-- VFMA: vd is the addend (R161). -/
def execVfma (st : Stall) (d a b : VReg) (m : MReg) (t : VFType) (s : State) : Host.Outcome State Fault Refusal :=
  vfpOp s st (.vddab d a b m latVec) d m t (fun th i =>
    let w := (vfFmt t).width
    (vfFmt t).fma th.fenv (laneOf w (th.getV a) i) (laneOf w (th.getV b) i) (laneOf w (th.getV d) i))

/-- VFMIN (R161). -/
def execVfmin (st : Stall) (d a b : VReg) (m : MReg) (t : VFType) (s : State) : Host.Outcome State Fault Refusal :=
  vfp2 s st d a b m t (fun v x y => (vfFmt t).minMax v false x y)

/-- VFMAX (R161). -/
def execVfmax (st : Stall) (d a b : VReg) (m : MReg) (t : VFType) (s : State) : Host.Outcome State Fault Refusal :=
  vfp2 s st d a b m t (fun v x y => (vfFmt t).minMax v true x y)

/-- VFCMP: bits 0 to n − 1 of the mask are written (R155, R162). -/
def execVfcmp (st : Stall) (g : MReg) (p : FPred) (a b : VReg) (m : MReg) (t : VFType) (s : State) : Host.Outcome State Fault Refusal :=
  let f := vfFmt t
  let w := f.width
  let n := lanesOf w
  issue s st featVec ⟨[.v a, .v b, .m m], [.v a, .v b, .m m], [.m g], latVec⟩ (fun s1 th =>
    let x := laneOf w (th.getV a)
    let y := laneOf w (th.getV b)
    fpFinish s1 th latVec true
      [.m g (lowMask n) (maskOf n (fun i => bit (th.getM m) i && predHolds p (f.compare th.fenv (x i) (y i))))]
      (maskedFlags n (th.getM m) (fun i =>
        flagIf (if predSignals p then f.isNan (x i) || f.isNan (y i) else f.isSnan (x i) || f.isSnan (y i)) flNV)))

/-- VFCVT (R163): when the destination is narrower, the lanes above the converted ones are zero. -/
def execVfcvt (st : Stall) (d a : VReg) (m : MReg) (dst src : VFType) (s : State) : Host.Outcome State Fault Refusal :=
  let ws := (vfFmt src).width
  let wd := (vfFmt dst).width
  let n := lanesOf (Nat.max ws wd)
  issue s st featVec (.vda d a m latVec) (fun s1 th =>
    let r := fun i => (vfFmt src).convert (vfFmt dst) th.fenv (laneOf ws (th.getV a) i)
    fpFinish s1 th latVec true
      [.v d (laneMask wd n (th.getM m) ||| (BitVec.allOnes 512 <<< (wd * n))) (ofLanes wd n (fun i => (r i).code))]
      (maskedFlags n (th.getM m) (fun i => (r i).fl)))

/-- VSHUF (R164). -/
def execVshuf (st : Stall) (d a b : VReg) (m : MReg) (t : VPType) (s : State) : Host.Outcome State Fault Refusal :=
  let w := vpWidth t
  let n := lanesOf w
  fixedWrites s st featVec (.vdab d a b m latVec) (fun th =>
    [.v d (laneMask w n (th.getM m)) (ofLanes w n (fun i => laneOf w (th.getV a) (laneOf w (th.getV b) i % n)))])

/-- VREDADD (R164, R165). -/
def execVredadd (st : Stall) (d a : VReg) (m : MReg) (t : VPType) (s : State) : Host.Outcome State Fault Refusal :=
  vreduce s st d a m t reduceSum (fun w x y => (x + y) % 2 ^ w) (fun _ => 0)

/-- VREDMAX (R164, R165). -/
def execVredmax (st : Stall) (d a : VReg) (m : MReg) (t : VPType) (s : State) : Host.Outcome State Fault Refusal :=
  vreduce s st d a m t reduceTop
    (fun w x y => if laneInt w y ≤ laneInt w x then x else y) (fun w => 2 ^ (w - 1))

/-- VMERGE: every lane is written (R164). -/
def execVmerge (st : Stall) (d a b : VReg) (m : MReg) (t : VPType) (s : State) : Host.Outcome State Fault Refusal :=
  let w := vpWidth t
  let n := lanesOf w
  fixedWrites s st featVec (.vdab d a b m latVec) (fun th =>
    [.v d (BitVec.allOnes 512)
      (ofLanes w n (fun i => if bit (th.getM m) i then laneOf w (th.getV a) i else laneOf w (th.getV b) i))])

/-- VMASK (R155, R164). -/
def execVmask (st : Stall) (g : MReg) (a : VReg) (m : MReg) (t : VPType) (s : State) : Host.Outcome State Fault Refusal :=
  let w := vpWidth t
  let n := lanesOf w
  fixedWrites s st featVec ⟨[.v a, .m m], [.v a, .m m], [.m g], latVec⟩ (fun th =>
    [.m g (lowMask n) (maskOf n (fun i => bit (th.getM m) i && laneNonzero t (laneOf w (th.getV a) i)))])

/-- VBCAST (R166). -/
def execVbcast (st : Stall) (d : VReg) (x : XReg) (e : ESz) (s : State) : Host.Outcome State Fault Refusal :=
  let w := eszWidth e
  fixedWrites s st featVec ⟨[.v d, .x x], [.x x], [.v d], latVec⟩ (fun th =>
    [.v d (BitVec.allOnes 512) (ofLanes w (lanesOf w) (fun _ => (th.getX x).toNat))])

/-- VEXT (R166). -/
def execVext (st : Stall) (x : XReg) (a : VReg) (e : ESz) (lane : BitVec 6) (s : State) : Host.Outcome State Fault Refusal :=
  fixedWrites s st featVec ⟨[.v a, .x x], [.v a], [.x x], latVec⟩ (fun th =>
    [.x x (BitVec.ofNat 64 (laneOf (eszWidth e) (th.getV a) lane.toNat))])

/-- VINS: the other lanes are unchanged (R166). -/
def execVins (st : Stall) (d : VReg) (x : XReg) (e : ESz) (lane : BitVec 6) (s : State) : Host.Outcome State Fault Refusal :=
  let w := eszWidth e
  fixedWrites s st featVec ⟨[.v d, .x x], [.v d, .x x], [.v d], latVec⟩ (fun th =>
    [.v d (laneMask w (lanesOf w) (at_ 1 lane.toNat)) (ofLanes w (lanesOf w) (fun _ => (th.getX x).toNat))])

/-- VBCASTI (R91, R166). -/
def execVbcasti (st : Stall) (d : VReg) (imm : BitVec 13) (t : VPType) (s : State) : Host.Outcome State Fault Refusal :=
  let w := vpWidth t
  fixedWrites s st featVec ⟨[.v d], [], [.v d], latVec⟩ (fun _ =>
    [.v d (BitVec.allOnes 512) (ofLanes w (lanesOf w) (fun _ => vbcastiLane imm t))])

/-- VSDOT: every lane, one rounding (R168). -/
def execVsdot (st : Stall) (d a b : VReg) (x : XReg) (s : State) : Host.Outcome State Fault Refusal :=
  issue s st featVec ⟨[.v d, .v a, .v b, .x x], [.v d, .v a, .v b, .x x], [.v d], latVec⟩ (fun s1 th =>
    let r := fun j => sdotLane th.fenv (dot4 (th.getV a) (th.getV b) j) (fld (th.getX x) 0 32) (fld (th.getX x) 32 32)
      (laneOf 32 (th.getV d) j)
    fpFinish s1 th latVec true [.v d (BitVec.allOnes 512) (ofLanes 32 16 (fun j => (r j).code))]
      (orFlags (fun j => (r j).fl) 16))

/-- VSCVT: byte quarter q of vd (R169). -/
def execVscvt (st : Stall) (d a : VReg) (x : XReg) (s : State) : Host.Outcome State Fault Refusal :=
  issue s st featVec ⟨[.v d, .v a, .x x], [.v a, .x x], [.v d], latVec⟩ (fun s1 th =>
    let q := fld (th.getX x) 32 2
    let r := fun i => scvtLane th.fenv (laneOf 32 (th.getV a) i) (fld (th.getX x) 0 32)
    fpFinish s1 th latVec true
      [.v d (BitVec.ofNat 512 ((2 ^ 128 - 1) * 2 ^ (128 * q)))
        (ofLanes 8 16 (fun i => (BitVec.ofInt 8 (r i).1).toNat) <<< (128 * q))]
      (orFlags (fun i => (r i).2) 16))

end Sys2Proof.Machine
end

