-- ==== Sys2Proof/Machine/MatrixNum.lean ====
section
/-! DEFINITION. Numbers of the matrix engine: operand formats and their validity, elements, scales, exact windows, trees,
special values, conversion into operand formats and the dropout generator (spec 05 R134 to R145; 09 R234 to R240, R249; 17
R365, R366). -/

namespace Sys2Proof.Machine

/-! ### Format registers (R143 to R145) -/

/-- CLASS and the other fields of word 0 (R144). -/
def fmClass (w : W64) : Nat := fld w 0 4
def fmBits (w : W64) : Nat := fld w 4 5
def fmSign (w : W64) : Nat := fld w 9 1
def fmExp (w : W64) : Nat := fld w 10 3
def fmMan (w : W64) : Nat := fld w 13 3
def fmBias (w : W64) : Int := (BitVec.ofNat 8 (fld w 16 8)).toInt
def fmPolicy (w : W64) : Nat := fld w 24 2

def isIntClass (w : W64) : Bool := [0, 1, 2, 3, 4, 14].contains (fmClass w)
def isNfClass (w : W64) : Bool := [5, 6, 7, 15].contains (fmClass w)
def isTensorClass (w : W64) : Bool := [14, 15].contains (fmClass w)

/-- The exponent of the last place of the smallest values of an NF format (R137). -/
def nfLast (w : W64) : Int := 1 - fmBias w - fmMan w

/-- The magnitude code of the largest finite value (R139). -/
def nfTop (w : W64) : Nat :=
  if fmPolicy w = 0 then (2 ^ fmExp w - 1) * 2 ^ fmMan w - 1
  else if fmPolicy w = 1 then 2 ^ (fmExp w + fmMan w) - 2
  else 2 ^ (fmExp w + fmMan w) - 1

/-- A magnitude code as m × 2^e (R137). -/
def nfMag (w : W64) (c : Nat) : Nat × Int :=
  let ex := c / 2 ^ fmMan w
  let m := c % 2 ^ fmMan w
  if ex = 0 then (m, nfLast w) else (m + 2 ^ fmMan w, ex - fmBias w - fmMan w)

/-- The conditions of R138. -/
def nfValid (w : W64) : Bool :=
  fmExp w ≤ 5 && fmSign w + fmExp w + fmMan w = fmBits w && fmBits w ≤ 8 && 1 ≤ fmExp w + fmMan w && fmPolicy w ≠ 3 &&
    (fmPolicy w ≠ 0 || 2 ≤ fmExp w) && (fmPolicy w ≠ 1 || 2 ≤ fmExp w + fmMan w) &&
    (let t := nfMag w (nfTop w)
     (bitLen t.1 : Int) + t.2 ≤ 128)

/-- Whether a format register's content is valid (R143, R145). -/
def fmtValid (w : W64) : Bool :=
  fld w 26 6 = 0 && (isTensorClass w || fld w 32 32 = 0) &&
    (if isIntClass w then 1 ≤ fmBits w && fmBits w ≤ 16 && fld w 9 17 = 0
     else if isNfClass w then nfValid w
     else fld w 4 22 = 0)

/-- The IEEE format of a class. -/
def fmIeee (w : W64) : Option FFmt :=
  match fmClass w with
  | 10 => some .half | 11 => some .bf16 | 12 => some .single | 13 => some .double
  | _ => none

/-- Planes of an operand (R232). -/
def fmPlanes (w : W64) : Nat :=
  if isIntClass w || isNfClass w then fmBits w
  else match fmIeee w with
    | some f => f.width
    | none => if fmClass w = 8 then 1 else 2

/-- The operand width w, or the significand width s (R143). -/
def fmWidth (w : W64) : Nat :=
  if isIntClass w then fmBits w
  else if isNfClass w then (if fmExp w = 0 then fmMan w else fmMan w + 1)
  else match fmIeee w with
    | some f => f.mb + 1
    | none => if fmClass w = 8 then 1 else 2

def fmFloats (w : W64) : Bool := isNfClass w || (fmIeee w).isSome

/-- The weight of the lowest bit of the smallest nonzero magnitude (R366). -/
def fmLast (w : W64) : Int :=
  if isNfClass w then nfLast w
  else match fmIeee w with
    | some f => f.qmin
    | none => 0

/-- Compute cycles of one k-block (R365). -/
def computeCycles (a b : W64) : Nat :=
  (if fmFloats a || fmFloats b then 4 else 1) * fmWidth a * fmWidth b

/-! ### Paths (R234) -/

inductive MxPath | int | window | block | tree
  deriving DecidableEq, Repr

/-- Elements of a block that share a scale: 32 or 16 (R142). -/
def blockSize (w : W64) : Nat := if [2, 4, 6].contains (fmClass w) then 32 else 16

/-- The path of a pair of classes (R234). -/
def mxPath (a b : W64) : Option MxPath :=
  let x := fmClass a
  let y := fmClass b
  let ints := [0, 1, 8, 9]
  let wins := [0, 1, 8, 9, 5, 10, 14, 15]
  if ints.contains x && ints.contains y then some .int
  else if wins.contains x && wins.contains y then some .window
  else if ([2, 4, 6].contains x && [2, 4, 6].contains y) || ([3, 7].contains x && [3, 7].contains y) then some .block
  else if x = y && (x = 11 || x = 12 || x = 13) then some .tree
  else none

/-- Whether a path accepts a slot type (R234, R235). -/
def pathAccepts (a b : W64) (ty : BitVec 2) : Bool :=
  match mxPath a b with
  | some .int => ty = 0
  | some .tree => if fmClass a = 13 then ty = 2 else ty = 1 || ty = 2
  | some _ => ty = 1 || ty = 2
  | none => false

/-! ### Values (R135 to R142, R240) -/

/-- A value of the engine: a NaN, signalling or not, an infinity, or (−1)^neg × m × 2^e. -/
inductive MVal where
  | nan (sig : Bool)
  | inf (neg : Bool)
  | fin (neg : Bool) (m : Nat) (e : Int)
  deriving DecidableEq, Repr

/-- A code of an IEEE format as a value. -/
def FFmt.mval (f : FFmt) (c : Nat) : MVal :=
  match f.unpack c with
  | .nan c => .nan (f.isSnan c)
  | .inf neg => .inf neg
  | .fin neg m e => .fin neg m e

/-- An NF code as a value: its NaN is quiet (R137, R139). -/
def nfVal (w : W64) (c : Nat) : MVal :=
  let mag := c % 2 ^ (fmExp w + fmMan w)
  let neg := fmSign w = 1 && c / 2 ^ (fmExp w + fmMan w) % 2 = 1
  if fmPolicy w = 0 && mag / 2 ^ fmMan w = 2 ^ fmExp w - 1 then (if mag % 2 ^ fmMan w = 0 then .inf neg else .nan false)
  else if fmPolicy w = 1 && mag = 2 ^ (fmExp w + fmMan w) - 1 then .nan false
  else .fin neg (nfMag w mag).1 (nfMag w mag).2

def intVal (x : Int) : MVal := .fin (x < 0) x.natAbs 0

/-- The exact value of an element, without a tensor scale (R117, R135 to R137). -/
def mxElem (w : W64) (c : Nat) : MVal :=
  match fmIeee w with
  | some f => f.mval c
  | none =>
    if isNfClass w then nfVal w c
    else if fmClass w = 8 then intVal (if c % 2 = 0 then -1 else 1)
    else if fmClass w = 9 then intVal (if c % 2 = 0 then 0 else if c / 2 % 2 = 1 then -1 else 1)
    else if [1, 4].contains (fmClass w) then intVal (c % 2 ^ fmBits w : Nat)
    else intVal (intValue (fmBits w) true (BitVec.ofNat 64 c))

/-- An E8M0 scale (R140). -/
def e8m0 (c : Nat) : MVal := if c = 255 then .nan false else .fin false 1 (c - 127)
/-- An unsigned E4M3 scale (R141). -/
def e4m3 (c : Nat) : MVal :=
  if 127 ≤ c then .nan false
  else if c / 8 = 0 then .fin false (c % 8) (-9)
  else .fin false (c % 8 + 8) ((c / 8 : Nat) - 10)

/-- A product under the IEEE rules, exact (R240, step 1). -/
def MVal.mul : MVal → MVal → MVal × Flags
  | .nan s, .nan t => (.nan false, flagIf (s || t) flNV)
  | .nan s, _ => (.nan false, flagIf s flNV)
  | _, .nan s => (.nan false, flagIf s flNV)
  | .inf a, .inf b => (.inf (a != b), 0)
  | .inf a, .fin b m _ => if m = 0 then (.nan false, flNV) else (.inf (a != b), 0)
  | .fin b m _, .inf a => if m = 0 then (.nan false, flNV) else (.inf (a != b), 0)
  | .fin a m e, .fin b n k => (.fin (a != b) (m * n) (e + k), 0)

/-- The environment of the engine: a rounding mode, subnormals kept (R127). -/
def mxEnv (rm : Rm) : FEnv := { rm := rm, ftz := false, daz := false }

/-- A code that rounds a value: the value of a NaN is canonical. -/
def FFmt.ofM (f : FFmt) (rm : Rm) : MVal → FRes
  | .nan _ => ⟨f.qnan, 0⟩
  | .inf neg => ⟨f.inf neg, 0⟩
  | .fin neg m e => f.round (mxEnv rm) neg m e false

/-- One rounded addition of a value into a code: a NaN held is kept, quieted (R129, R240). -/
def FFmt.addM (f : FFmt) (rm : Rm) (acc : Nat) (v : MVal) : FRes :=
  match f.unpack acc, v with
  | .nan c, _ => ⟨f.quiet c, flagIf (f.isSnan c) flNV⟩
  | _, .nan _ => ⟨f.qnan, 0⟩
  | .inf a, .inf b => if a = b then ⟨f.inf a, 0⟩ else ⟨f.qnan, flNV⟩
  | .inf a, _ => ⟨f.inf a, 0⟩
  | _, .inf b => ⟨f.inf b, 0⟩
  | .fin a m e, .fin b n k => f.addFin (mxEnv rm) a m e b n k

/-! ### Exact windows (R236, R237, R366) -/

def Partial.zero : Partial := { sum := 0, posInf := false, negInf := false, nan := false, inval := false }

/-- An element as a multiple of 2^q. -/
def MVal.units (q : Int) : MVal → Int
  | .fin neg m e => scaled neg m e q
  | _ => 0

/-- One product enters a window; la and lb are the weights of the two formats. -/
def Partial.take (la lb : Int) (p : Partial) (xy : MVal × MVal) : Partial :=
  match xy.1, xy.2 with
  | .fin a m e, .fin b n k => { p with sum := p.sum + scaled a m e la * scaled b n k lb }
  | x, y =>
    match x.mul y with
    | (.inf neg, _) => if neg then { p with negInf := true } else { p with posInf := true }
    | (_, fl) => { p with nan := true, inval := p.inval || fl ≠ 0 }

/-- The value that a window holds, in units of 2^q, and the NV of its causes (R240, step 2). -/
def Partial.value (p : Partial) (q : Int) : MVal × Flags :=
  let both := p.posInf && p.negInf
  if p.nan || both then (.nan false, flagIf (p.inval || both) flNV)
  else if p.posInf then (.inf false, 0)
  else if p.negInf then (.inf true, 0)
  else (.fin (p.sum < 0) p.sum.natAbs q, 0)

/-- A scale as a factor: a NaN scale raises no flag (R142). -/
def MVal.asScale : MVal → MVal
  | .nan _ => .nan false
  | v => v

/-- A value times the tensor scale of a .T class (R142, R237). -/
def tensorScale (w : W64) (v : MVal × Flags) : MVal × Flags :=
  if isTensorClass w then
    let r := v.1.mul (FFmt.single.mval (fld w 32 32)).asScale
    (r.1, v.2 ||| r.2)
  else v

/-- The end of an exact-window instruction at one entry (R237). -/
def windowEnd (f : FFmt) (rm : Rm) (a b : W64) (acc : Nat) (p : Partial) : FRes :=
  let v := tensorScale b (tensorScale a (p.value (fmLast a + fmLast b)))
  let r := f.addM rm acc v.1
  ⟨r.code, r.fl ||| v.2⟩

/-! ### Blocks (R238) and trees (R239) -/

/-- One block of the block path. -/
def blockStep (f : FFmt) (rm : Rm) (a b : W64) (acc : Nat) (xy : List (MVal × MVal)) (sa sb : MVal) : FRes :=
  let s := (xy.foldl (Partial.take (fmLast a) (fmLast b)) Partial.zero).value (fmLast a + fmLast b)
  let v1 := s.1.mul sa
  let v2 := v1.1.mul sb
  let v := FFmt.single.ofM rm v2.1
  let w := match v2.1 with
    | .nan _ => MVal.nan false
    | _ => FFmt.single.mval v.code
  let r := f.addM rm acc w
  ⟨r.code, s.2 ||| v1.2 ||| v2.2 ||| v.fl ||| r.fl⟩

/-- A node of the tree: the rounded sum of two values. -/
def treeNode (f : FFmt) (rm : Rm) (x y : MVal) : MVal × Flags :=
  match x, y with
  | .fin a m e, .fin b n k =>
    let r := f.addFin (mxEnv rm) a m e b n k
    (f.mval r.code, r.fl)
  | .nan _, _ => (.nan false, 0)
  | _, .nan _ => (.nan false, 0)
  | .inf a, .inf b => if a = b then (.inf a, 0) else (.nan false, flNV)
  | .inf a, _ => (.inf a, 0)
  | _, .inf b => (.inf b, 0)

/-- One level of the tree. -/
def mxTreeLevel (f : FFmt) (rm : Rm) : List MVal → List MVal × Flags
  | x :: y :: r =>
    let n := treeNode f rm x y
    let l := mxTreeLevel f rm r
    (n.1 :: l.1, n.2 ||| l.2)
  | l => (l, 0)

/-- Infinities of both signs among products: a cause of NV on every path, beside any NaN (R240, step 2). -/
def bothInf (ps : List MVal) : Flags := flagIf (ps.contains (.inf false) && ps.contains (.inf true)) flNV

/-- The sum of a k-group of 16 products (R239, R240). -/
def treeSum (f : FFmt) (rm : Rm) (xy : List (MVal × MVal)) : MVal × Flags :=
  let ps := xy.map (fun p => p.1.mul p.2)
  let l1 := mxTreeLevel f rm (ps.map (·.1))
  let l2 := mxTreeLevel f rm l1.1
  let l3 := mxTreeLevel f rm l2.1
  let l4 := mxTreeLevel f rm l3.1
  (l4.1.headD (.nan false), ps.foldl (fun g p => g ||| p.2) (bothInf (ps.map (·.1))) ||| l1.2 ||| l2.2 ||| l3.2 ||| l4.2)

/-- Adds one k-group into an entry. -/
def treeStep (f : FFmt) (rm : Rm) (acc : Nat) (xy : List (MVal × MVal)) : FRes :=
  let g := treeSum f rm xy
  let r := f.addM rm acc g.1
  ⟨r.code, g.2 ||| r.fl⟩

/-! ### Conversion into operand formats (R134, R139) -/

/-- A finite nonzero value into an NF format. -/
def nfRound (w : W64) (rm : Rm) (neg : Bool) (m : Nat) (e : Int) : FRes :=
  let sg := if neg then 2 ^ (fmExp w + fmMan w) else 0
  let p : Nat := if fmExp w = 0 then fmMan w else fmMan w + 1
  let q1 := e + bitLen m - p
  let n1 := (roundAt rm neg m e false q1).1
  let tiny := fmExp w ≠ 0 && q1 + bitLen n1 - 1 < 1 - fmBias w
  let q := if q1 < nfLast w then nfLast w else q1
  let r := roundAt rm neg m e false q
  let c := (q - nfLast w).toNat * 2 ^ fmMan w + r.1
  if nfTop w < c then
    let inf := fmPolicy w = 0 && (match rm with
      | .rtz => false | .rdn => neg | .rup => !neg | _ => true)
    ⟨sg + (if inf then nfTop w + 1 else nfTop w), flOF ||| flNX⟩
  else ⟨sg + c, flagIf r.2 flNX ||| flagIf (tiny && r.2) flUF⟩

/-- An FP32 value into an NF format (R134, R139). -/
def toNf (w : W64) (rm : Rm) (v : Nat) : FRes :=
  let f := FFmt.single
  let signed := fmSign w = 1
  let sg := if f.neg v && signed then 2 ^ (fmExp w + fmMan w) else 0
  let ones := 2 ^ (fmExp w + fmMan w) - 1
  match f.unpack v with
  | .nan c => if fmPolicy w = 2 then ⟨0, flNV⟩ else ⟨sg + ones, flagIf (f.isSnan c) flNV⟩
  | .inf neg =>
    if fmPolicy w = 0 then ⟨sg + nfTop w + 1, 0⟩
    else if fmPolicy w = 1 then ⟨sg + ones, flNV⟩
    else if neg && !signed then ⟨0, flNV⟩
    else ⟨sg + nfTop w, flNV⟩
  | .fin neg m e =>
    if m = 0 then ⟨sg, 0⟩
    else if neg && !signed then ⟨0, flNX⟩
    else nfRound w rm neg m e

/-- An FP32 value into SINT or UINT (R134). -/
def toMxInt (w : W64) (rm : Rm) (v : Nat) : FRes :=
  let n := fmBits w
  let sg := fmClass w = 0
  let code := fun (x : Int) => (x % (2 ^ n : Nat)).toNat
  match FFmt.single.unpack v with
  | .nan _ => ⟨0, flNV⟩
  | .inf neg => ⟨code (if neg then intMin n sg else intMax n sg), flNV⟩
  | .fin neg m e =>
    let r := toIntFormat rm n sg neg m e
    ⟨code r.1, r.2⟩

/-- Whether a class may be an output (R246). -/
def isOutClass (w : W64) : Bool := [0, 1, 5, 10, 11, 12].contains (fmClass w)

/-- Bytes of an output container (R247). -/
def containerOf (w : W64) : Nat :=
  match fmClass w with
  | 12 => 4
  | 10 | 11 => 2
  | _ => if fmBits w ≤ 8 then 1 else 2

/-- An FP32 value into the output format (R134). -/
def toOutput (w : W64) (rm : Rm) (v : Nat) : FRes :=
  match fmIeee w with
  | some f => if fmClass w = 12 then ⟨v, 0⟩ else FFmt.single.convert f (mxEnv rm) v
  | none => if isNfClass w then toNf w rm v else toMxInt w rm v

/-! ### The generator (R249) -/

def genRound (kx : W64 × W64) : W64 × W64 :=
  let x := (kx.2 ^^^ kx.1) * 0xB5E32C9D4A17F6E3
  (kx.1.rotateLeft 17 + 0x6C8E93B12F54A0D7, x ^^^ (x >>> 31))

/-- gen(key, stream, row, col). -/
def generator (key : W64) (stream row col : Nat) : W64 :=
  let k := key ^^^ at_ (stream % 2 ^ 16) 48
  let x := at_ (row % 2 ^ 32) 32 ||| at_ (col % 2 ^ 32) 0
  let r := genRound (genRound (genRound (genRound (k, x))))
  r.2 ^^^ (r.2 >>> 29)

end Sys2Proof.Machine
end

