-- ==== Sys2Proof/Machine/Rows.lean ====
section
/-! DEFINITION. The wired barrier of a row: arrivals, their order and withdrawal (spec 09 R226, R229), and cells as the row
array reads and writes them (09 R232, R254; 17 R372). -/

namespace Sys2Proof.Machine

/-! ### Arrivals (R226) -/

/-- The head arrivals of the four cores, in column order, when all are there. -/
def State.rowArrivals (s : State) (row : Nat) : Option (List (Tid × Arrival)) :=
  match (s.core (4 * row)).arrival, (s.core (4 * row + 1)).arrival, (s.core (4 * row + 2)).arrival,
    (s.core (4 * row + 3)).arrival with
  | some a, some b, some c, some d => some [a, b, c, d]
  | _, _, _, _ => none

/-- A start of the row is already awaited. -/
def State.startPending (s : State) (row : Nat) : Bool :=
  s.sched.timers.any (fun t => t.2.2 == .matrixStart row) || s.sched.agenda.contains (.matrixStart row)

/-- With the latest of the four arrivals now, the row starts two ticks later. -/
def State.armStart (s : State) (row : Nat) : State :=
  if (s.rowArrivals row).isSome && !s.startPending row then s.after_ 2 rankEngine (.matrixStart row) else s

/-- A thread arrives at its issue, or waits for its core's slot (R226). -/
def State.mxArrive (s : State) (t : Tid) (a : Arrival) : State :=
  let c := s.core t.core
  match c.arrival with
  | none => (s.putCore t.core { c with arrival := some (t, a) }).armStart (t.core / 4)
  | some _ => s.putCore t.core { c with arrQueue := c.arrQueue ++ [(t, a)] }

/-- A core's slot frees, and the next waiting thread takes it. -/
def CoreRec.nextArrival (c : CoreRec) : CoreRec :=
  match c.arrQueue with
  | [] => { c with arrival := none }
  | a :: r => { c with arrival := some a, arrQueue := r }

/-- An arrival is withdrawn (R229). -/
def State.mxWithdraw (s : State) (t : Tid) : State :=
  let c := s.core t.core
  match c.arrival with
  | some (u, _) =>
    if u = t then
      let s1 := (s.putCore t.core c.nextArrival)
      let e := Instr.matrixStart (t.core / 4)
      ({ s1 with sched := { s1.sched with timers := s1.sched.timers.filter (fun x => x.2.2 != e),
                                          agenda := s1.sched.agenda.filter (· != e) } }).armStart (t.core / 4)
    else s.putCore t.core { c with arrQueue := c.arrQueue.filter (fun x => !(x.1 == t)) }
  | none => s

/-! ### Cells of the row's cores -/

/-- An offset of a core's local store as the row array reaches it (R38). -/
def State.mxLocs (s : State) (core off n : Nat) : List PLoc := (List.range n).map (fun i => s.ploc core (.store core (off + i)))

/-- Bytes of a column's core as an instruction reads them, and the poisoned cells met, which read as zero (R254): an access of the
thread that issued there, at the instruction's place in its program order (R378), so it sees the thread's earlier stores. -/
def State.mxRead (s : State) (row : Nat) (f : InFlight) (col off n : Nat) : W64 × List Nat :=
  let core := 4 * row + col
  match (f.tids[col]?).bind s.thread? with
  | some th => s.loadFwd { th with sbuf := th.sbuf.filter (fun e => e.id < f.id) } ((List.range n).map (fun i => .store core (off + i)))
  | none =>
    let ps := s.mxLocs core off n
    let bad := (ps.flatMap PLoc.cells).eraseDups.filter s.mem.poisoned
    (if bad.isEmpty then s.mem.readPs ps else 0, bad)

/-- Whether a byte lies in a core's local store. -/
def ByteLoc.inStore (core : Nat) : ByteLoc → Bool
  | .store c _ => c == core
  | _ => false

/-- Whether no access of a thread to a core's local store is under way: the core and remote ports then leave its banks free (R302,
R372). -/
def State.storeIdle (s : State) (core : Nat) : Bool :=
  !s.threads.any (fun e =>
    (match e.2.run with
     | .parked (.access a) => a.lanes.any (fun l => l.val.isNone && l.locs.any (ByteLoc.inStore core))
     | _ => false) ||
    e.2.sbuf.any (fun x => x.sent && x.parts.any (fun p => p.out && !p.done && p.locs.any (ByteLoc.inStore core))))

/-- Cells that the row array is granted in a tick from each core: 8 when the banks are free, at least 2 (R372). -/
def State.pace (s : State) (row : Nat) : Nat × State :=
  if (List.range 4).all (fun c => s.storeIdle (4 * row + c)) then (8, s)
  else
    let d := s.draw 7
    (2 + d.1, d.2)

end Sys2Proof.Machine
end

