-- ==== Sys2Proof/Machine/Matrix.lean ====
section
/-! DEFINITION. Meanings of the matrix and format instructions and of the events of a row array (spec 09; 17 R370 to R376). -/

namespace Sys2Proof.Machine

/-- Feature bit 1 gates the matrix and format instructions (R96). -/
def featMx : Option Nat := some 1

/-- A local-store address that names the issuing core (R58, R227). -/
def ownAddr (off : Nat) : W64 := at_ 0x3FFF 48 ||| at_ off 0

/-! ### Checks at issue (R227) -/

/-- The thread that issues now, for the format registers its descriptors name. -/
def State.issuing (s : State) : Option Thread := s.sched.cur.bind s.thread?

/-- Registers read by a matrix instruction: its x registers, and the format registers that descriptors name (R231). -/
def mxOpnds (s : State) (xs : List XReg) (fms : Thread → List Nat) : Opnds :=
  let o := Opnds.rd xs
  match s.issuing with
  | some th => { o with reads := o.reads ++ (fms th).map (fun n => .fm (BitVec.ofNat 3 n)) }
  | none => o

/-- The first misaligned offset of a list (R227, steps 3 and 6). -/
def alignOffs (offs : List Nat) : Option (Cause × W64) :=
  (offs.find? (fun o => o % 8 ≠ 0)).map (fun o => (.align, ownAddr o))

/-- The first range of a list that reaches the end of local store (R227, steps 4 and 7); TVAL is the address of its first byte (log 128). -/
def rangeOffs (rs : List (Nat × Nat)) : Option (Cause × W64) :=
  (rs.find? (fun r => 0x30000 < r.1 + r.2)).map (fun r => (.protect, ownAddr r.1))

/-- Parks the thread with its arrival. -/
def State.matrixArrival (s : State) (th : Thread) (a : Arrival) : Effect :=
  .ok ((s.park th.id (.matrix a)).mxArrive th.id a)

/-- An arrival of a function, with nothing captured. -/
def arrivalOf (fn : MxFn) (xa xb xc : W64) : Arrival :=
  { fn := fn, xa := xa, xb := xb, xc := xc, fmtA := 0, fmtB := 0, blk := [] }

/-- KB, SLOT and the offsets of a descriptor (R233). -/
def Arrival.kb (a : Arrival) : Nat := fld a.xc 3 10
def Arrival.aoff (a : Arrival) : Nat := fld a.xa 0 18
def Arrival.boff (a : Arrival) : Nat := fld a.xb 0 18

/-- SLOT, by function. -/
def Arrival.slot (a : Arrival) : Nat :=
  match a.fn with
  | .mac | .mul => fld a.xc 0 3
  | _ => fld a.xa 0 3

/-- Ranges of a generator-mode declaration: those of the A and of the B scales (R243). -/
def ScaleDecl.ranges (d : ScaleDecl) (k : Nat) : List (Nat × Nat) :=
  if d.mode = 2 then
    [(fld d.xb 0 18, (8 * k - 1) / 2 ^ d.shift + 1), (fld d.xb 18 18, (32 * k - 1) / 2 ^ d.shift + 1)]
  else []

/-- The first failure of MXMAC and MXMUL at issue (R227, R233, R234, R242); the bound of the scale bytes is looked at behind step 2 (log 46). -/
def macFault (c : CoreRec) (a : Arrival) : Option (Cause × W64) :=
  if fld a.xa 21 43 ≠ 0 then some (.illegal, a.xa)
  else if fld a.xb 21 43 ≠ 0 then some (.illegal, a.xb)
  else if fld a.xc 13 51 ≠ 0 || a.kb = 0 then some (.illegal, a.xc)
  else if !fmtValid a.fmtA then some (.illegal, a.fmtA)
  else if !fmtValid a.fmtB then some (.illegal, a.fmtB)
  else match mxPath a.fmtA a.fmtB with
    | none => some (.illegal, at_ (fld a.fmtA 0 32) 0)
    | some p =>
      if p = .block && c.decl.mode = 1 && 1024 < 40 * (64 * a.kb) / blockSize a.fmtA then some (.illegal, a.xc)
      else (alignOffs [a.aoff, a.boff]).orElse (fun _ =>
        rangeOffs ([(a.aoff, 64 * fmPlanes a.fmtA * a.kb), (a.boff, 256 * fmPlanes a.fmtB * a.kb)] ++ c.decl.ranges (64 * a.kb)))

/-- MXMAC and MXMUL (R226, R227, R233). -/
def macForm (s : State) (st : Stall) (fn : MxFn) (a b c : XReg) : Host.Outcome State Fault Refusal :=
  issue s st featMx (mxOpnds s [a, b, c] (fun th => [fld (th.getX a) 18 3, fld (th.getX b) 18 3])) (fun s1 th =>
    let r := { arrivalOf fn (th.getX a) (th.getX b) (th.getX c) with
      fmtA := th.getF (BitVec.ofNat 3 (fld (th.getX a) 18 3)), fmtB := th.getF (BitVec.ofNat 3 (fld (th.getX b) 18 3)) }
    match macFault (s1.core th.id.core) r with
    | some (k, v) => .trap k v
    | none => s1.matrixArrival th r)

/-- MXMAC (R233). -/
def execMxmac (st : Stall) (a b c : XReg) (s : State) : Host.Outcome State Fault Refusal := macForm s st .mac a b c
/-- MXMUL (R233). -/
def execMxmul (st : Stall) (a b c : XReg) (s : State) : Host.Outcome State Fault Refusal := macForm s st .mul a b c

/-! ### MXDRAIN (R246, R247) -/

/-- Bytes of a residual element. -/
def residualSize (f : Nat) : Nat := if f = 0 then 0 else if f = 3 then 4 else 2

def Arrival.resf (a : Arrival) : Nat := fld a.xa 6 2

/-- Words of the parameter block. -/
def Arrival.word (a : Arrival) (n : Nat) : W64 := a.blk.getD n 0
def Arrival.out (a : Arrival) : Nat := fld (a.word 0) 0 18
def Arrival.ostride (a : Arrival) : Nat := fld (a.word 0) 18 14
def Arrival.res (a : Arrival) : Nat := fld (a.word 0) 32 18
def Arrival.rstride (a : Arrival) : Nat := fld (a.word 0) 50 14

/-- The checks of MXDRAIN before its parameter block is read (R227, steps 1 to 4). -/
def drainFault (a : Arrival) : Option (Cause × W64) :=
  if fld a.xa 14 50 ≠ 0 || 4 < fld a.xa 9 3 then some (.illegal, a.xa)
  else if fld a.xb 18 46 ≠ 0 then some (.illegal, a.xb)
  else if !fmtValid a.fmtA then some (.illegal, a.fmtA)
  else if !isOutClass a.fmtA then some (.illegal, at_ (fld a.fmtA 0 32) 0)
  else (alignOffs [fld a.xb 0 18]).orElse (fun _ => rangeOffs [(fld a.xb 0 18, 40)])

/-- The offset of the first misaligned row, given a base and a stride (R227, step 6). -/
def misaligned (base stride : Nat) : Option Nat :=
  if base % 8 ≠ 0 then some base else if stride % 8 ≠ 0 then some (base + stride) else none

/-- The checks of the parameter block (R227, steps 5 to 7). -/
def blockFault (a : Arrival) : Option (Cause × W64) :=
  let n := 32 * containerOf a.fmtA
  let m := 32 * residualSize a.resf
  if a.ostride < n || (a.resf ≠ 0 && a.rstride < m) then some (.illegal, a.word 0)
  else if fld (a.word 3) 32 32 ≠ 0 then some (.illegal, a.word 3)
  else match (misaligned a.out a.ostride).orElse (fun _ => if a.resf = 0 then none else misaligned a.res a.rstride) with
    | some o => some (.align, ownAddr o)
    | none => rangeOffs ((a.out, 31 * a.ostride + n) :: (if a.resf = 0 then [] else [(a.res, 31 * a.rstride + m)]))

/-- MXDRAIN (R246, R247). -/
def execMxdrain (st : Stall) (a b : XReg) (s : State) : Host.Outcome State Fault Refusal :=
  issue s st featMx (mxOpnds s [a, b] (fun th => [fld (th.getX a) 3 3])) (fun s1 th =>
    let r := { arrivalOf .drain (th.getX a) (th.getX b) 0 with fmtA := th.getF (BitVec.ofNat 3 (fld (th.getX a) 3 3)) }
    match drainFault r with
    | some (k, v) => .trap k v
    | none => s1.withWords th (ownAddr (fld r.xb 0 18)) 5 (fun s2 ws =>
      match blockFault { r with blk := ws } with
      | some (k, v) => .trap k v
      | none => s2.matrixArrival th { r with blk := ws }))

/-! ### MXZERO, ACLD, ACST, MXCFG and MXSCL (R241, R244, R245) -/

/-- MXZERO (R245). -/
def execMxzero (st : Stall) (a : XReg) (s : State) : Host.Outcome State Fault Refusal :=
  issue s st featMx (.rd [a]) (fun s1 th =>
    let v := th.getX a
    if fld v 5 59 ≠ 0 || fld v 3 2 = 3 then .trap .illegal v else s1.matrixArrival th (arrivalOf .zero v 0 0))

/-- The checks of ACLD and ACST (R227, R245). -/
def accFault (load : Bool) (xa xb : W64) : Option (Cause × W64) :=
  if fld xa 6 58 ≠ 0 || (if load then bit xa 5 || fld xa 3 2 = 3 else fld xa 3 2 ≠ 0) then some (.illegal, xa)
  else if fld xb 18 46 ≠ 0 then some (.illegal, xb)
  else (alignOffs [fld xb 0 18]).orElse (fun _ => rangeOffs [(fld xb 0 18, 8192)])

/-- ACLD (R245). -/
def execAcld (st : Stall) (a b : XReg) (s : State) : Host.Outcome State Fault Refusal :=
  issue s st featMx (.rd [a, b]) (fun s1 th =>
    match accFault true (th.getX a) (th.getX b) with
    | some (k, v) => .trap k v
    | none => s1.matrixArrival th (arrivalOf .acld (th.getX a) (th.getX b) 0))

/-- ACST (R245). -/
def execAcst (st : Stall) (a b : XReg) (s : State) : Host.Outcome State Fault Refusal :=
  issue s st featMx (.rd [a, b]) (fun s1 th =>
    match accFault false (th.getX a) (th.getX b) with
    | some (k, v) => .trap k v
    | none => s1.matrixArrival th (arrivalOf .acst (th.getX a) (th.getX b) 0))

/-- MXCFG (R244). -/
def execMxcfg (st : Stall) (a : XReg) (s : State) : Host.Outcome State Fault Refusal :=
  issue s st featMx (.rd [a]) (fun s1 th =>
    let v := th.getX a
    if fld v 4 60 ≠ 0 || 4 < fld v 0 3 then .trap .illegal v else s1.matrixArrival th (arrivalOf .cfg v 0 0))

/-- MXSCL (R241); the offsets of the generator's scales are checked as any offset of a descriptor (R227, step 3). -/
def execMxscl (st : Stall) (a b : XReg) (s : State) : Host.Outcome State Fault Refusal :=
  issue s st featMx (.rd [a, b]) (fun s1 th =>
    let v := th.getX a
    let w := th.getX b
    let mode := fld v 0 2
    if fld v 7 57 ≠ 0 || mode = 3 || 15 < fld v 2 5 || (fld v 2 5 ≠ 0 && mode ≠ 2) then .trap .illegal v
    else if (mode = 0 && w ≠ 0) || (mode = 2 && fld w 36 28 ≠ 0) then .trap .illegal w
    else match (if mode = 2 then alignOffs [fld w 0 18, fld w 18 18] else none) with
    | some (k, x) => .trap k x
    | none => s1.matrixArrival th (arrivalOf .scl v w 0))

/-! ### FMTSET and FMTGET (R231) -/

/-- FMTSET. -/
def execFmtset (st : Stall) (n : MReg) (a : XReg) (s : State) : Host.Outcome State Fault Refusal :=
  fixedWrites s st featMx ⟨[.x a], [.x a], [.fm n], latAlu⟩ (fun th => [.fm n (th.getX a)])

/-- FMTGET. -/
def execFmtget (st : Stall) (d : XReg) (n : MReg) (s : State) : Host.Outcome State Fault Refusal :=
  fixedWrites s st featMx ⟨[.x d], [.fm n], [.x d], latAlu⟩ (fun th => [.x d (th.getF n)])

/-! ### The start (R226 to R228, R235, R242) -/

def ScaleDecl.none : ScaleDecl := { mode := 0, shift := 0, xb := 0 }

/-- The fields in which the arrivals of a row must agree (R228). -/
def Arrival.agree (a : Arrival) (d : ScaleDecl) : List W64 :=
  match a.fn with
  | .mac => [0, a.xc, a.fmtA, a.fmtB, d.mode.zeroExtend 64]
  | .mul => [1, a.xc, a.fmtA, a.fmtB, d.mode.zeroExtend 64]
  | .drain => [2, a.xa &&& ~~~0x38, a.fmtA]
  | .zero => [3, a.xa]
  | .acld => [4, a.xa]
  | .acst => [5, a.xa]
  | .cfg => [6, a.xa]
  | .scl => [7, a.xa]

/-- The trap of all four threads at the start, if one falls due: agreement, the slot type, the scales (R227). -/
def State.startFault (s : State) (row : Nat) (as : List Arrival) : Option (Cause × W64) :=
  let ds := (List.range 4).map (fun c => (s.core (4 * row + c)).decl)
  let keys := (as.zip ds).map (fun p => p.1.agree p.2)
  match (List.range 4).find? (fun c => keys.getD c [] ≠ keys.headD []) with
  | some c => some (.gangmismatch, at_ (4 * row + c) 0)
  | none =>
    match as with
    | [] => none
    | a :: _ =>
      if a.fn ≠ .mac && a.fn ≠ .mul then none
      else if !pathAccepts a.fmtA a.fmtB ((s.row row).types.getD a.slot 0) then some (.illegal, a.xc)
      else if mxPath a.fmtA a.fmtB ≠ some .block then none
      else if (ds.headD ScaleDecl.none).mode = 0 then some (.scaleseq, 0xFFFFFFFF)
      else if (ds.headD ScaleDecl.none).mode = 1 then
        let n := 64 * a.kb / blockSize a.fmtA
        let held := fun (c : Nat) (half : Bool) (seq : Nat) => (s.row row).tiles.any (fun t =>
          t.col == c && t.half == half && t.seq.toNat == seq && t.bytes.length == (if half then 32 else 8) * n)
        (((List.range 4).zip ds).flatMap (fun p =>
          [(p.1, false, fld p.2.xb 0 32), (p.1, true, fld p.2.xb 32 32)])).findSome? (fun x =>
            if held x.1 x.2.1 x.2.2 then none
            else some (.scaleseq, at_ x.2.2 0 ||| at_ (4 * row + x.1) 32 ||| atB x.2.1 45))
      else none

/-- Cells that a core feeds for a k-block: its operand words, and 40 scale cells in generator mode (R371, R372). -/
def InFlight.cells (f : InFlight) : Nat :=
  match f.arrs with
  | a :: _ => 8 * fmPlanes a.fmtA + 32 * fmPlanes a.fmtB + (if f.decls.any (fun d => d.mode = 2) then 40 else 0)
  | [] => 0

/-- Feed ticks of a k-block with free banks, 8 cells in a tick: Fb (R372). -/
def InFlight.feedFree (f : InFlight) : Nat := f.cells / 8

/-- Feed ticks of a k-block in the worst case, 2 cells in a tick: Fw (R372). -/
def InFlight.feedWorst (f : InFlight) : Nat := f.cells / 2

/-- Compute cycles of a k-block, dense: Cc (R365). -/
def InFlight.cycles (f : InFlight) : Nat :=
  match f.arrs with
  | a :: _ => computeCycles a.fmtA a.fmtB
  | [] => 1

/-- The time of an instruction that works in one piece, or of the tail of MXMAC and MXMUL (R373). -/
def InFlight.lastTicks (f : InFlight) : Nat :=
  match f.arrs with
  | a :: _ => match a.fn with
    | .mac | .mul => match mxPath a.fmtA a.fmtB with
      | some .int => 4
      | some .tree => 20
      | _ => 12
    | .drain => 24 + Nat.max 128 ((128 * containerOf a.fmtA + 128 * residualSize a.resf) / 2)
    | .acld | .acst => 520
    | _ => 8
  | [] => 1

/-- K-blocks of an instruction. -/
def InFlight.blocks (f : InFlight) : Nat :=
  match f.arrs with
  | a :: _ => match a.fn with
    | .mac | .mul => a.kb
    | _ => 0
  | [] => 0

/-- The longest time of an instruction from its beginning (R373); what is computed already is not counted again. -/
def InFlight.worstTicks (f : InFlight) : Nat :=
  if f.blocks = 0 then f.lastTicks
  else 8 + f.feedWorst + (f.blocks - f.kdone) * Nat.max f.cycles f.feedWorst + f.lastTicks

/-- Replaces the instruction that runs. -/
def State.setRunning (s : State) (row : Nat) (f : InFlight) : State :=
  s.modRow row (fun r => { r with queue := match r.queue with | _ :: q => f :: q | [] => [] })

/-- The smallest member of a list, or 0. -/
def leastOf (l : List Nat) : Nat := l.foldl Nat.min (l.headD 0)

/-- The tail: the completion follows within its ticks, no earlier than the shortest time of the instruction less what its
slowest slice skipped (R368, R373). -/
def State.endRow (s : State) (row : Nat) (f : InFlight) : State :=
  (s.draw f.lastTicks).2.sched_ (Nat.max (s.ticks + 1 + (s.draw f.lastTicks).1) (f.least - leastOf f.skipped)) rankEngine
    (.matrixComplete row)

/-- The k-block at the head of the operand registers is computed, while the next one is fetched (R372, R373). -/
def State.startBlock (s : State) (row : Nat) (f : InFlight) (low : Nat) : State :=
  let x := s.draw (Nat.max f.cycles f.feedFree + 1 - low)
  let time := Nat.max 1 (low + x.1)
  (x.2.setRunning row { f with endAt := s.ticks + time }).sched_ (s.ticks + time) rankEngine (.kBlockBoundary row)

/-- The longest time from the beginning of an instruction to its first access of local store: 8 ticks, or the 24 of the drain pipeline
(R373, R376). -/
def InFlight.leadTicks (f : InFlight) : Nat :=
  match f.arrs with
  | a :: _ => match a.fn with
    | .drain => 24
    | _ => 8
  | [] => 8

/-- Whether an instruction reads or writes local store in one piece (R245, R248). -/
def InFlight.streams (f : InFlight) : Bool :=
  match f.arrs with
  | a :: _ => a.fn == .acld || a.fn == .acst || a.fn == .drain
  | [] => false

/-- The oldest started instruction begins, or goes on after a restore: from workAt on its row array works, tick by tick; or its
tail follows at once (R373). -/
def State.beginRow (s : State) (row : Nat) : State :=
  match (s.row row).queue with
  | [] => s
  | f :: _ =>
    let macs := f.kdone < f.blocks
    let x := if f.streams then s.draw (f.leadTicks + 1) else (if f.begun then 0 else 8, s)
    let f1 := { f with
      begun := true, opnds := [], part := [], done := 0, granted := 0, endAt := 0, workAt := s.ticks + 1 + x.1,
      least := if f.blocks = 0 || f.begun then 0
        else s.ticks + 8 + f.feedFree + f.blocks * Nat.max f.cycles f.feedFree + f.lastTicks }
    let s1 := (x.2.extendCopies row f.id f1.worstTicks).setRunning row f1
    if macs || f.streams then s1 else s1.endRow row f1

/-- What changes at the start itself (R241, R244, R245). -/
def State.startEffect (s : State) (row : Nat) (arr : List (Tid × Arrival)) : State :=
  let as := arr.map (·.2)
  match as with
  | [] => s
  | a :: _ =>
    let ds := (List.range 4).map (fun c => (s.core (4 * row + c)).decl)
    match a.fn with
    | .cfg => s.modRow row (fun r => { r with cfg := a.xa })
    | .scl => (as.zip (List.range 4)).foldl (fun st p => st.modCore (4 * row + p.2) (fun c =>
        { c with decl := { mode := BitVec.ofNat 2 (fld p.1.xa 0 2), shift := fld p.1.xa 2 5, xb := p.1.xb } })) s
    | fn =>
      let mac := fn = .mac || fn = .mul
      let s1 := if mac then
          (List.range 4).foldl (fun st c => st.modCore (4 * row + c) (fun c => { c with decl := ScaleDecl.none })) s
        else s
      let s2 := if fn = .zero || fn = .acld then
          s1.modRow row (fun r => { r with types := r.types.setD a.slot (BitVec.ofNat 2 (fld a.xa 3 2)) 0 })
        else s1
      let ths := arr.filterMap (fun p => s.thread? p.1)
      let f : InFlight :=
        { asid := (ths.head?.map (·.asid)).getD 0, kernels := (ths.map (·.kernel)).eraseDups, tids := arr.map (·.1),
          arrs := as, decls := if mac then ds else [], cfg := (s.row row).cfg, ty := (s2.row row).types.getD a.slot 0,
          kdone := 0, flags := 0, poison := false, begun := false, opnds := [], endAt := 0, part := [], workAt := 0, done := 0,
          granted := 0, bad := 0, least := 0, skipped := [0, 0, 0, 0], open_ := [], id := s2.fresh.1 }
      let s3 := s2.fresh.2.modRow row (fun r => { r with queue := r.queue ++ [f] })
      if (s3.row row).queue.length = 1 then s3.beginRow row else s3

/-- MATRIX_START: with four arrivals and, but for MXCFG and MXSCL, a free queue entry, the row starts jointly (R226). -/
def execMatrixStart (row : Nat) (s : State) : Host.Outcome State Fault Refusal :=
  .next (match s.rowArrivals row with
    | none => s
    | some arr =>
      let queued := arr.any (fun p => p.2.fn ≠ .cfg && p.2.fn ≠ .scl)
      if queued && 4 ≤ (s.row row).queue.length then s
      else
        let s1 := (List.range 4).foldl (fun st c => st.modCore (4 * row + c) CoreRec.nextArrival) s
        let s2 := match s.startFault row (arr.map (·.2)) with
          | some (k, v) => arr.foldl (fun (st : State) (p : Tid × Arrival) => st.trapParked p.1 k v) s1
          | none => (arr.foldl (fun (st : State) (p : Tid × Arrival) => st.wake p.1) s1).startEffect row arr
        s2.armStart row)

/-! ### MXMAC and MXMUL at work (R232, R235 to R240) -/

/-- The code of element t of a line. -/
def codeOf (ws : List W64) (t : Nat) : Nat := ws.foldr (fun w n => 2 * n + (if bit w t then 1 else 0)) 0

/-- The elements of a line. -/
def lineVals (fm : W64) (ws : List W64) : List MVal := (List.range 64).map (fun t => mxElem fm (codeOf ws t))

/-- The scale byte of a line of a core for block q, and the cell read for it if that is poisoned: half is true for B (R242,
R243). DESIGN CHOICE (log 102): a generator whose SHIFT is below log2 of the block size takes the byte of the block's first
element. -/
def State.scaleByte (s : State) (row : Nat) (f : InFlight) (col line q bs : Nat) (half : Bool) : Nat × List Nat :=
  let d := f.decls.getD col ScaleDecl.none
  let k := 64 * f.blocks
  if d.mode = 1 then
    let seq := if half then fld d.xb 32 32 else fld d.xb 0 32
    match (s.row row).tiles.find? (fun t => t.col == col && t.half == half && t.seq.toNat == seq) with
    | some t => ((t.bytes.getD (line * (k / bs) + q) 0).toNat, [])
    | none => (0, [])
  else
    let base := if half then fld d.xb 18 18 else fld d.xb 0 18
    let off := base + (line * k + q * bs) / 2 ^ d.shift
    let x := s.mxRead row f col off 1
    (x.1.toNat, x.2)

/-- Whether the instruction reads the scales of its lines: the block path. -/
def Arrival.scaled (a : Arrival) : Bool := mxPath a.fmtA a.fmtB == some .block

/-- Item k of what column col reads of k-block blk: the words of its A quarter line by line, plane p of line i at p × KB × 8 + blk × 8 + i,
those of its B slice likewise with 32 lines, then the scales of the A rows and of the B columns, each line's poisoned cells counted
once (R232, R371). -/
def State.mxItem (s : State) (row : Nat) (f : InFlight) (blk col k : Nat) : MxItem :=
  match f.arrs[col]? with
  | none => { word := 0, scales := [], bad := 0 }
  | some a =>
    let pa := fmPlanes a.fmtA
    let pb := fmPlanes a.fmtB
    let word := fun (off planes lines m : Nat) =>
      let x := s.mxRead row f col (off + 8 * ((m % planes * a.kb + blk) * lines + m / planes)) 8
      ({ word := x.1, scales := [], bad := x.2.length } : MxItem)
    if k < 8 * pa then word a.aoff pa 8 k
    else if k < 8 * pa + 32 * pb then word a.boff pb 32 (k - 8 * pa)
    else
      let m := k - (8 * pa + 32 * pb)
      let bs := blockSize a.fmtA
      let c := 64 / bs
      let l := (List.range c).map (fun j => s.scaleByte row f col (if m < 8 then m else m - 8) (blk * c + j) bs (8 ≤ m))
      { word := 0, scales := l.map (·.1), bad := (l.flatMap (·.2)).eraseDups.length }

/-- Items of a column's k-block: the scales of the side band are at hand in the row's buffer and take no cell (R371). -/
def InFlight.items (f : InFlight) : Nat :=
  match f.arrs with
  | a :: _ => 8 * fmPlanes a.fmtA + 32 * fmPlanes a.fmtB + (if a.scaled then 40 else 0)
  | [] => 0

/-- The operand registers' k-block, from what the columns have read. -/
def opBlock (a : Arrival) (part : List (List MxItem)) : OpBlock :=
  let pa := fmPlanes a.fmtA
  let pb := fmPlanes a.fmtB
  let lines := fun (n planes from_ : Nat) (its : List MxItem) =>
    (List.range n).map (fun i => ((its.drop (from_ + i * planes)).take planes).map (·.word))
  let scales := fun (from_ n : Nat) (its : List MxItem) => ((its.drop (8 * pa + 32 * pb + from_)).take n).map (·.scales)
  { a := part.flatMap (lines 8 pa 0), b := part.flatMap (lines 32 pb (8 * pa)),
    sa := part.flatMap (scales 0 8), sb := part.flatMap (scales 8 32), pois := (part.flatMap (fun l => l.map (·.bad))).sum }

/-! ### Zero skipping (R368, R369) -/

/-- Whether every line's word of a plane is zero. -/
def planeZero (lines : List (List W64)) (p : Nat) : Bool := lines.all (fun l => l.getD p 0 = 0)

/-- Whether every element's exponent field is zero, so that no element has a hidden bit. -/
def noHidden (lines : List (List W64)) (man exp : Nat) : Bool := (List.range exp).all (fun i => planeZero lines (man + i))

/-- For each chunk row of an operand, whether it carries magnitude bits that are all zero. -/
def zeroPlanes (fm : W64) (lines : List (List W64)) : List Bool :=
  if isIntClass fm then (List.range (fmWidth fm)).map (planeZero lines)
  else if isNfClass fm then
    (List.range (fmMan fm)).map (planeZero lines) ++ (if fmExp fm = 0 then [] else [noHidden lines (fmMan fm) (fmExp fm)])
  else match fmIeee fm with
    | some f => (List.range f.mb).map (planeZero lines) ++ [noHidden lines f.mb f.eb]
    | none => if fmClass fm = 9 then [planeZero lines 0, planeZero lines 0] else [false]

/-- Whether an element is an infinity or a NaN of its class. -/
def MVal.nonfinite : MVal → Bool
  | .fin _ _ _ => false
  | _ => true

/-- The ticks that a slice skips in a k-block: none with NOSKIP = 1 or an infinity or NaN in the tile. -/
def skipTicks (noskip : Bool) (fa fb : W64) (as bs : List (List W64)) : Nat :=
  if noskip || as.any (fun l => (lineVals fa l).any MVal.nonfinite) || bs.any (fun l => (lineVals fb l).any MVal.nonfinite) then 0
  else
    let za := zeroPlanes fa as
    let zb := zeroPlanes fb bs
    (za.map (fun x => (zb.filter (fun y => x || y)).length)).sum * (if fmFloats fa || fmFloats fb then 4 else 1)

/-- The ticks that each slice skips in the k-block at the head of the operand registers. -/
def InFlight.skips (f : InFlight) : List Nat :=
  match f.arrs, f.opnds with
  | a :: _, o :: _ => (List.range 4).map (fun c => skipTicks (bit f.cfg 3) a.fmtA a.fmtB o.a ((o.b.drop (32 * c)).take 32))
  | _, _ => [0, 0, 0, 0]

/-- The shortest time of the k-block at the head of the operand registers (R372, R373). -/
def InFlight.shortest (f : InFlight) : Nat := Nat.max f.cycles f.feedFree - f.skips.foldl Nat.max 0

def scaleVal (bs : Nat) (c : Nat) : MVal := if bs = 32 then e8m0 c else e4m3 c

/-- The key of an accumulator entry. -/
def accKey (slot r n : Nat) : Nat := (slot * 32 + r) * 128 + n

/-- The precision of a float slot. -/
def slotFmt (ty : BitVec 2) : FFmt := if ty = 1 then .single else .double

/-- An entry as an instruction that reads it sees it: MXMUL starts from zero (R235). -/
def InFlight.accIn (f : InFlight) (r : RowRec) (a : Arrival) (key : Nat) : W64 :=
  if a.fn = .mul && f.kdone = 0 then 0
  else if f.ty = 1 then r.acc.getD key 0 &&& 0xFFFFFFFF else r.acc.getD key 0

/-- The 4,096 entries of a tile, changed one by one; the flags are ORed. -/
def overEntries (step : Nat → Nat → Tab W64 → Tab Partial → Tab W64 × Tab Partial × Flags)
    (acc : Tab W64) (open_ : Tab Partial) : Tab W64 × Tab Partial × Flags :=
  ((List.range 32).flatMap (fun r => (List.range 128).map (fun n => (r, n)))).foldl (fun x p =>
    let y := step p.1 p.2 x.1 x.2.1
    (y.1, y.2.1, x.2.2 ||| y.2.2)) (acc, open_, 0)

/-- The sub-lists of n elements. -/
def chunksOf (n : Nat) : Nat → List (MVal × MVal) → List (List (MVal × MVal))
  | 0, _ => []
  | k + 1, l => l.take n :: chunksOf n k (l.drop n)

/-- One k-block at one entry: the entry, its window and the flags. -/
def entryBlock (f : InFlight) (a : Arrival) (p : MxPath) (o : OpBlock) (xy : List (MVal × MVal)) (r n : Nat)
    (acc : Nat) (w : Partial) : Nat × Partial × Flags :=
  let rm := Rm.ofCode (fld f.cfg 0 3)
  match p with
  | .int | .window => (acc, xy.foldl (Partial.take (fmLast a.fmtA) (fmLast a.fmtB)) w, 0)
  | .tree => (chunksOf 16 4 xy).foldl (fun x g =>
      let y := treeStep (slotFmt f.ty) rm x.1 g
      (y.code, w, x.2.2 ||| y.fl)) (acc, w, 0)
  | .block =>
    let bs := blockSize a.fmtA
    let c := 64 / bs
    ((chunksOf bs c xy).zip (List.range c)).foldl (fun x g =>
      let sa := scaleVal bs ((o.sa.getD r []).getD g.2 0)
      let sb := scaleVal bs ((o.sb.getD n []).getD g.2 0)
      let y := blockStep (slotFmt f.ty) rm a.fmtA a.fmtB x.1 g.1 sa sb
      (y.code, w, x.2.2 ||| y.fl)) (acc, w, 0)

/-- Whether an instruction reads an entry of a slot that an error struck (R306). -/
def RowRec.struck (r : RowRec) (slot : Nat) : Bool := r.badAcc.any (fun k => k / 4096 == slot)

/-- The struck entries of a slot that is written anew are sound again. -/
def RowRec.mend (r : RowRec) (slot : Nat) : RowRec := { r with badAcc := r.badAcc.filter (fun k => k / 4096 != slot) }

/-- Whether an instruction goes on at a k-block boundary: its context is live, or is being pre-empted while a thread that issued it has
not stopped, or has stores to drain that may wait for its reads (R253, R354, R378). -/
def State.rowLive (s : State) (f : InFlight) : Bool :=
  match s.ctx? f.asid with
  | some c => c.phase == .live || (c.phase == .stopping && f.tids.any (fun t =>
      match s.thread? t with
      | some th => th.asid == f.asid && (th.run != .stopped || !th.sbuf.isEmpty)
      | none => false))
  | none => false

/-- Whether a row array is at rest (R354, step 5): nothing has begun, or the instruction stands at a k-block boundary. -/
def State.rowRests (s : State) (row : Nat) : Bool :=
  match (s.row row).queue with
  | f :: _ => !f.begun || (f.kdone < f.blocks && f.endAt = 0 && !s.rowLive f)
  | [] => true

/-- The row array reads cells of a k-block in a tick: the first, or the next one while the one before it is computed. With its last cell
it stands in the operand registers (R363, R372). -/
def State.fetchCells (s : State) (row : Nat) (f : InFlight) (a : Arrival) (n : Nat) : State :=
  if f.kdone + f.opnds.length < f.blocks && f.opnds.length < 2 && (f.endAt ≠ 0 || s.rowLive f) then
    let got := (f.part.headD []).length
    let upto := if f.cells ≤ got + n then f.items else got + n
    let part := (List.range 4).map (fun c => f.part.getD c [] ++
      (List.range (upto - got)).map (fun i => s.mxItem row f (f.kdone + f.opnds.length) c (got + i)))
    if upto = f.items then
      let o := opBlock a part
      (s.setRunning row { f with opnds := f.opnds ++ [o], part := [], bad := f.bad + o.pois,
                                 poison := f.poison || o.pois ≠ 0 || (a.fn = .mac && (s.row row).struck a.slot) }).sched_ s.ticks
        rankEngine (.kBlockBoundary row)
    else s.setRunning row { f with part := part }
  else s

/-- Poisoned cells that the instruction has met are counted, and a read may have met an error that it corrected (R361, R362). -/
def State.countReads (s : State) (row : Nat) (f : InFlight) (offs : List Nat) : State :=
  let s1 := if f.bad = 0 then s else (s.setRunning row { f with bad := 0 }).count f.asid 8 f.bad
  ((List.range 4).zip offs).foldl (fun st p => st.mayCorrect f.asid (localKey (4 * row + p.1) p.2)) s1

/-- The reads of an instruction are over: the releases of its threads that waited for them go on (R378). -/
def State.readsOver (s : State) (tids : List Tid) : State := (tids.foldl State.sendStores s).pollAll

/-- The k-block at the head of the operand registers is summed, and the next one is computed, or the tail follows (R235 to
R239, R366, R367). A context that stops stops here, but after the last k-block (R253, R375). -/
def State.sumBlock (s : State) (row : Nat) (f : InFlight) (a : Arrival) (b : OpBlock) (rest : List OpBlock) : State :=
  let p := (mxPath a.fmtA a.fmtB).getD .int
  let direct := p = .tree || p = .block
  let va := b.a.map (lineVals a.fmtA)
  let vb := b.b.map (lineVals a.fmtB)
  let x := overEntries (fun r n acc w =>
    let k := accKey a.slot r n
    let o := r * 128 + n
    let y := entryBlock f a p b ((va.getD r []).zip (vb.getD n [])) r n
      (f.accIn { s.row row with acc := acc } a k).toNat (w.getD o Partial.zero)
    (if direct then acc.setD k (BitVec.ofNat 64 y.1) 0 else acc, w.setD o y.2.1 Partial.zero, y.2.2))
    (s.row row).acc f.open_
  let f1 := { f with kdone := f.kdone + 1, flags := f.flags ||| x.2.2, open_ := x.2.1, opnds := rest,
                     skipped := (f.skipped.zip f.skips).map (fun z => z.1 + z.2),
                     poison := f.poison || (a.fn = .mac && (s.row row).struck a.slot) }
  let s1 := (s.modRow row (fun r =>
    { (if a.fn = .mul && direct && f.kdone = 0 then r.mend a.slot else r) with acc := x.1 })).setRunning row f1
  if f1.blocks ≤ f1.kdone then s1.endRow row f1
  else if !s.rowLive f then s1.setRunning row { f1 with opnds := [], part := [], endAt := 0 }
  else if rest.isEmpty then s1.setRunning row { f1 with endAt := 0 }
  else s1.startBlock row f1 f1.shortest

/-- K_BLOCK_BOUNDARY: a k-block has been fetched or computed. The first fetched is computed at once. A computed one is summed when the next
is at hand; a context that stops goes no further, and before its first k-block it stops there (R375). -/
def execKBlockBoundary (row : Nat) (s : State) : Host.Outcome State Fault Refusal :=
  .next (match (s.row row).queue with
    | [] => s
    | f :: _ =>
      match f.arrs, f.opnds with
      | a :: _, o :: rest =>
        if !f.begun || f.blocks ≤ f.kdone || s.ticks < f.endAt then s
        else
          let s0 := s.countReads row f (f.arrs.map Arrival.aoff)
          let f0 := { f with bad := 0 }
          let s1 := if f.endAt = 0 then s0.startBlock row f0 f.shortest
            else if rest.isEmpty && f.kdone + 1 < f.blocks && s.rowLive f then s0
            else s0.sumBlock row f0 a o rest
          if f.readsLeft then s1 else s1.readsOver f.tids
      | _, _ => s)

/-! ### Completion (R233, R245, R248, R250, R252) -/

/-- The end of MXMAC and MXMUL on the integer and window paths (R236, R237). -/
def State.endMac (s : State) (row : Nat) (f : InFlight) (a : Arrival) : State × Flags :=
  let p := (mxPath a.fmtA a.fmtB).getD .int
  let rm := Rm.ofCode (fld f.cfg 0 3)
  let g := { f with kdone := 0 }
  let s0 := if a.fn = .mul && (p = .int || p = .window) then s.modRow row (fun r => r.mend a.slot) else s
  if p = .int then
    let x := overEntries (fun r n acc w =>
      let k := accKey a.slot r n
      let sum := BitVec.ofInt 64 (w.getD (r * 128 + n) Partial.zero).sum
      (acc.setD k (g.accIn { s.row row with acc := acc } a k + sum) 0, w, 0)) (s.row row).acc f.open_
    (s0.modRow row (fun r => { r with acc := x.1 }), 0)
  else if p = .window then
    let x := overEntries (fun r n acc w =>
      let k := accKey a.slot r n
      let y := windowEnd (slotFmt f.ty) rm a.fmtA a.fmtB (g.accIn { s.row row with acc := acc } a k).toNat
        (w.getD (r * 128 + n) Partial.zero)
      (acc.setD k (BitVec.ofNat 64 y.code) 0, w, y.fl)) (s.row row).acc f.open_
    (s0.modRow row (fun r => { r with acc := x.1 }), x.2.2)
  else (s0, 0)

/-- The tiles that the instruction's declarations name are consumed (R242, R370). -/
def State.consumeTiles (s : State) (row : Nat) (f : InFlight) : State :=
  if f.decls.any (fun d => d.mode = 1) then
    (s.modRow row (fun r => { r with tiles := r.tiles.filter (fun t =>
      !(let d := f.decls.getD t.col ScaleDecl.none
        d.mode = 1 && t.seq.toNat = (if t.half then fld d.xb 32 32 else fld d.xb 0 32))) })).retryTiles row
  else s

/-- The entries that the four slices take in a tick: rows ascending, columns ascending in a row (R376). -/
def InFlight.entries (f : InFlight) (upto : Nat) : List (Nat × Nat × Arrival) :=
  (List.range (upto - f.done)).flatMap (fun i => ((List.range 4).zip f.arrs).map (fun p => (f.done + i, p)))

/-- What follows when an instruction has gone up to an entry: with its last one it completes in this tick. -/
def State.advanceRow (s : State) (row : Nat) (f : InFlight) (upto : Nat) : State :=
  let s1 := s.setRunning row { f with done := upto }
  if upto < 1024 then s1 else s1.sched_ s.ticks rankEngine (.matrixComplete row)

/-- ACLD reads entries of its slot, one cell each (R245). -/
def State.loadCells (s : State) (row : Nat) (f : InFlight) (n : Nat) : State :=
  let upto := Nat.min 1024 (f.done + n)
  let x := (f.entries upto).foldl (fun (x : Tab W64 × Nat) e =>
    let r := s.mxRead row f e.2.1 (fld e.2.2.xb 0 18 + 8 * e.1) 8
    (x.1.setD (accKey e.2.2.slot (e.1 / 32) (32 * e.2.1 + e.1 % 32)) (if f.ty = 1 then r.1 &&& 0xFFFFFFFF else r.1) 0, x.2 + r.2.length))
    ((s.row row).acc, 0)
  (s.modRow row (fun r => { r with acc := x.1 })).advanceRow row
    { f with bad := f.bad + x.2, poison := f.poison || x.2 ≠ 0 } upto

/-- Writes bytes of a column's core, behind the earlier stores of the thread that issued there (R287, R378); the cell that they end is set
full when FILL = 1 (R252). -/
def State.mxWrite (s : State) (row : Nat) (f : InFlight) (col off : Nat) (bytes : List Byte) (fill : Bool) : State :=
  let core := 4 * row + col
  let part : StorePart := { addr := 0, locs := (List.range bytes.length).map (fun i => .store core (off + i)), op := .store 8 0,
                            done := false, acked := false, sent := none, out := true }
  let s1 : State := match f.tids[col]? with
    | some t => if (s.thread? t).any (fun (th : Thread) => th.sbuf.any (fun e => e.id < f.id)) then s.performEarlier t f.id part else s
    | none => s
  let ps := s1.mxLocs core off bytes.length
  let s2 := s1.setMem ((ps.zip bytes).foldl (fun (m : Memory) (e : PLoc × Byte) => m.writeP e.1 e.2) s1.mem)
  if fill && (off + bytes.length) % 8 = 0 then ((ps.flatMap PLoc.cells).eraseDups).foldl (fun st k => st.setFull k true) s2 else s2

/-- ACST writes entries of its slot, one cell each (R245, R252). -/
def State.storeCells (s : State) (row : Nat) (f : InFlight) (n : Nat) : State :=
  let upto := Nat.min 1024 (f.done + n)
  ((f.entries upto).foldl (fun st e =>
    st.mxWrite row f e.2.1 (fld e.2.2.xb 0 18 + 8 * e.1)
      (leBytes 8 ((s.row row).acc.getD (accKey e.2.2.slot (e.1 / 32) (32 * e.2.1 + e.1 % 32)) 0).toNat) (bit e.2.2.xa 5)) s).advanceRow
    row f upto

/-- A slot entry as FP32 (R248). -/
def drainIn (ty : BitVec 2) (rm : Rm) (e : W64) : FRes :=
  if ty = 1 then ⟨e.toNat % 2 ^ 32, 0⟩
  else if ty = 2 then FFmt.double.convert .single (mxEnv rm) e.toNat
  else FFmt.single.roundInt (mxEnv rm) e.toInt 0 false

/-- A residual as FP32, widened exactly (R248). -/
def residualIn (f v : Nat) : FRes :=
  if f = 1 then FFmt.half.convert .single (mxEnv .rne) v
  else if f = 2 then FFmt.bf16.convert .single (mxEnv .rne) v
  else ⟨v, 0⟩

/-- One element of MXDRAIN: the output code and the flags (R248). -/
def drainElem (a : Arrival) (ty : BitVec 2) (e : W64) (residual r n : Nat) : FRes :=
  let f := FFmt.single
  let rm := Rm.ofCode (fld a.xa 9 3)
  let v0 := drainIn ty rm e
  let v1 := f.mul (mxEnv rm) v0.code (fld (a.word 1) 0 32)
  let fl1 := v0.fl ||| v1.fl
  let v2 : FRes := if a.resf = 0 then ⟨v1.code, fl1⟩
    else
      let q := residualIn a.resf residual
      let y := f.add (mxEnv rm) v1.code q.code
      ⟨y.code, fl1 ||| q.fl ||| y.fl⟩
  let h := generator (a.word 2) (fld (a.word 3) 0 16) (fld (a.word 4) 0 32 + r) (fld (a.word 4) 32 32 + n)
  let v3 : FRes := if bit a.xa 8 then
      (if fld (a.word 3) 16 16 ≤ fld h 48 16 then
        (let y := f.mul (mxEnv rm) v2.code (fld (a.word 1) 32 32)
         ⟨y.code, v2.fl ||| y.fl⟩)
      else ⟨0, v2.fl⟩)
    else v2
  let o := toOutput a.fmtA rm v3.code
  ⟨o.code, v3.fl ||| o.fl⟩

/-- MXDRAIN drains entries: each slice at most 8 in a tick, as far as the granted cells carry their residuals and outputs (R248, R252, R254,
R372, R376). DESIGN CHOICE (log 115): the residual of an entry is read in the tick in which its output is written. -/
def State.drainCells (s : State) (row : Nat) (f : InFlight) (a0 : Arrival) (n : Nat) : State :=
  let sz := residualSize a0.resf
  let ct := containerOf a0.fmtA
  let per := ct + sz
  let granted := Nat.min (f.granted + n) (((f.done + 8) * per + 7) / 8)
  let upto := Nat.min 1024 (Nat.min (f.done + 8) (granted * 8 / per))
  let x := (f.entries upto).foldl (fun (x : State × Flags × Nat × Bool) e =>
    let a := e.2.2
    let r := e.1 / 32
    let j := e.1 % 32
    let q := if sz = 0 then (0, []) else s.mxRead row f e.2.1 (a.res + r * a.rstride + j * sz) sz
    let y := drainElem a f.ty ((s.row row).acc.getD (accKey a.slot r (32 * e.2.1 + j)) 0) q.1.toNat r (32 * e.2.1 + j)
    (x.1.mxWrite row f e.2.1 (a.out + r * a.ostride + j * ct) (leBytes ct y.code) (bit a.xa 12), x.2.1 ||| y.fl,
      x.2.2.1 + (if j * sz % 8 = 0 then q.2.length else 0), x.2.2.2 || !q.2.isEmpty)) (s, 0, 0, false)
  x.1.advanceRow row { f with granted := granted, flags := f.flags ||| x.2.1, bad := f.bad + x.2.2.1,
                              poison := f.poison || x.2.2.2 } upto

/-- A row array works in this tick: on the k-blocks of MXMAC and MXMUL, or on the cells of ACLD, ACST and MXDRAIN (R372, R376). -/
def State.rowWork (s : State) (row : Nat) : State :=
  match (s.row row).queue with
  | [] => s
  | f :: _ =>
    match f.arrs with
    | [] => s
    | a :: _ =>
      if !f.begun || s.ticks < f.workAt || (f.streams && 1024 ≤ f.done) then s
      else
        let x := s.pace row
        match a.fn with
        | .mac | .mul => x.2.fetchCells row f a x.1
        | .acld => x.2.loadCells row f x.1
        | .acst => x.2.storeCells row f x.1
        | .drain => x.2.drainCells row f a x.1
        | _ => s

/-- The row arrays at the start of a tick. -/
def State.rowTicks (s : State) : State :=
  ((s.rows.filter (fun e => !e.2.queue.isEmpty)).map (·.1)).foldl State.rowWork s

/-- The slot of an MXZERO is cleared (R245). -/
def State.clearSlot (s : State) (row slot : Nat) : State :=
  s.modRow row (fun r => { r.mend slot with acc := r.acc.filter (fun e => e.1 / 4096 != slot) })

/-- The effect of the oldest instruction of a row at its completion: the state and its flags. -/
def State.endMatrix (s : State) (row : Nat) (f : InFlight) (a : Arrival) : State × Flags :=
  match a.fn with
  | .mac | .mul =>
    let x := s.endMac row f a
    (x.1.consumeTiles row f, x.2)
  | .zero => (s.clearSlot row a.slot, 0)
  | .acld => ((s.countReads row f (f.arrs.map (fun b => fld b.xb 0 18))).modRow row (fun r => r.mend a.slot), 0)
  | .drain =>
    let s1 := s.countReads row f (if a.resf = 0 then [] else f.arrs.map Arrival.res)
    (if bit a.xa 13 then s1.clearSlot row a.slot else s1, 0)
  | .acst | .cfg | .scl => (s, 0)

/-- Whether the instruction reads its slot. -/
def MxFn.readsSlot : MxFn → Bool
  | .mac | .drain | .acst => true
  | _ => false

/-- MATRIX_COMPLETE: results, flags and poison reach the four threads, the entry frees, the next instruction begins and a
start that waited for the entry takes place (R226, R235, R250, R254, R373). -/
def execMatrixComplete (row : Nat) (s : State) : Host.Outcome State Fault Refusal :=
  .next (match (s.row row).queue with
    | [] => s
    | f :: _ =>
      match f.arrs with
      | [] => s
      | a :: _ =>
        if !f.begun || f.kdone < f.blocks then s
        else
          let struck := a.fn.readsSlot && (s.row row).struck a.slot
          let x := s.endMatrix row f a
          let s1 := x.1.modRow row (fun r => { r with queue := r.queue.drop 1 })
          let bits := flagBits (f.flags ||| x.2) ||| atB (f.poison || struck) 15
          let s2 := f.tids.foldl (fun st t => st.setFlags t s.ticks bits) s1
          let s3 := match (s2.row row).queue with
            | g :: _ => if s2.rowLive g then s2.beginRow row else s2
            | [] => s2
          let s4 := if (s3.rowArrivals row).isSome && !s3.startPending row then s3.sched_ s.ticks rankEngine (.matrixStart row) else s3
          (f.kernels.foldl State.tryRetire s4).readsOver f.tids)

end Sys2Proof.Machine
end

