-- ==== Sys2Proof/Machine/Messaging.lean ====
section
/-! DEFINITION. Meanings of the messaging and copy instructions and of the events of the receive engine and the streamers
(spec 10; 17 R370; 19). -/

namespace Sys2Proof.Machine

/-- Feature bit 2 gates messaging, bit 3 copies (R96). -/
def featMsg : Option Nat := some 2
def featCopy : Option Nat := some 3

/-! ### SEND (R262 to R264) -/

/-- The first failure of SEND after its descriptor's address (R258, R260, R262). -/
def State.sendFault (s : State) (c : Ctx) (core : Nat) (a : W64) (w : List W64) : Option (Cause × W64) :=
  let q := fun n => w.getD n 0
  let len := fld (q 1) 32 32
  if fld (q 2) 40 24 ≠ 0 || fld (q 3) 32 32 ≠ 0 || fld (q 3) 0 32 = 0 || !messageSource core (q 0) len then some (.illegal, a)
  else match s.rangeFault c core (q 0) len true false with
    | some k => some (k, q 0)
    | none =>
      match s.rankFault c (fld (q 2) 0 16) with
      | some f => some f
      | none => s.ownRankFault core (fld (q 2) 16 16) a

/-- The header of a message (R380). -/
def headerOf (s : State) (th : Thread) (drank srank : Nat) (tag : W32) (seq len : Nat) (kind : MsgKind) (src : W64)
    (cmbox id bound : Nat) : Header :=
  { asid := th.asid, srcPeer := s.ni.peer, target := s.ni.peer, drank := drank, srank := srank, tag := tag, stamp := th.csr.vtime, seq := seq,
    len := len, kind := kind, saddr := src, tid := th.id, cmbox := cmbox, sendId := id, born := s.ticks,
    expires := s.ticks + bound, units := [], via := none, payload := [], pois := [] }

/-- SEND: the thread parks until the header is accepted or refused (R263). -/
def execSend (st : Stall) (a : XReg) (s : State) : Host.Outcome State Fault Refusal :=
  issue s st featMsg (.rd [a]) (fun s1 th =>
    let c := s1.ctxOf th
    let ad := th.getX a
    match descFault th.id.core ad 32 with
    | some k => .trap k ad
    | none =>
      s1.withWords th ad 4 (fun s1 w =>
      let q := fun n => w.getD n 0
      match s1.sendFault c th.id.core ad w with
      | some (k, v) => .trap k v
      | none =>
        let n := s1.takeSeq (pairKey th.asid (fld (q 2) 16 16) (fld (q 2) 0 16))
        let f := n.2.fresh
        let len := fld (q 1) 32 32
        let h := headerOf s1 th (fld (q 2) 0 16) (fld (q 2) 16 16) (BitVec.ofNat 32 (q 1).toNat) n.1 len
          (if len ≤ 4096 then .eager else .rendezvous) (q 0) (fld (q 2) 32 8) f.1 (fld (q 3) 0 32)
        let m : SendRec := { id := f.1, kernel := th.kernel, hdr := h, direct := none, group := f.1, desc := ad, staged := false,
                             asked := false, got := [], parts := [], accepted := false, counted := false, name := ad, nobody := false, fate := .underWay,
                             views := c.views, own := true, born := s1.ticks }
        .ok (((f.2.addSend m (fld (q 3) 0 32)).park th.id (.messageStores [f.1] ad)).goMessage th.id [f.1] ad)))

/-! ### RECV and PROBE (R265 to R270) -/

/-- The receive that a descriptor asks for. -/
def recvOf (c : Ctx) (th : Thread) (a : W64) (w : List W64) : Recv :=
  let q := fun n => w.getD n 0
  { asid := th.asid, core := th.id.core, dest := q 0, tag := BitVec.ofNat 32 (q 1).toNat, tmask := BitVec.ofNat 32 (fld (q 1) 32 32),
    src := BitVec.ofNat 16 (fld (q 2) 0 16), smask := BitVec.ofNat 16 (fld (q 2) 16 16), drank := fld (q 2) 32 16,
    mbox := fld (q 2) 48 8, fill := bit (q 2) 56, maxlen := fld (q 3) 0 32, desc := a, writer := th.id.core,
    views := c.views, kernel := th.kernel }

/-- The first failure of RECV and PROBE after the descriptor's address; PROBE does not check DEST (R265, R270). -/
def State.recvFault (s : State) (c : Ctx) (core : Nat) (a : W64) (w : List W64) (r : Recv) (probe : Bool) :
    Option (Cause × W64) :=
  let q := fun n => w.getD n 0
  if fld (q 2) 57 7 ≠ 0 || fld (q 3) 32 32 ≠ 0 || (!probe && (bit r.dest 63 || fld r.dest 61 2 = 3)) then some (.illegal, a)
  else match (if probe then none else s.rangeFault c core r.dest r.maxlen false true) with
    | some k => some (k, r.dest)
    | none => s.ownRankFault core r.drank a

/-- The first eligible unexpected message that a receive matches (R266 to R268). -/
def State.findMessage (s : State) (c : Ctx) (r : Recv) : Option Header := (s.eligible c).find? (fun h => r.matches h)

/-- Where a RECV or PROBE stands in the order of the events of its match unit, behind the headers (R381). -/
def rankAsk (name : Nat) : Nat := 2 ^ 32 + name

/-- The thread parks, and its event travels to the match unit of its core's die (R266, R270, R381). -/
def State.askRxe (s : State) (th : Thread) (ask : RxeAsk) : State :=
  let f := s.fresh
  (f.2.park th.id (.rxe f.1 ask)).enginePacket (clusterOf th.id.core) (rxeHome (dieOf th.id.core)) (s.plannedKernel th.kernel) 64 0
    (rankAsk (globalName s.ni.peer th.id)) (.acceptanceReply f.1)

/-- The unit's answer travels back to the thread. -/
def State.answerAsk (s : State) (th : Thread) (id : Nat) (ask : RxeAsk) : State :=
  (s.modThread th.id (fun u => { u with run := .parked (.rxe id ask) })).enginePacket (rxeHome (dieOf th.id.core))
    (clusterOf th.id.core) (s.plannedKernel th.kernel) 16 0 rankEngine (.acceptanceReply id)

/-- The thread that waits under a number for its match unit. -/
def State.asker? (s : State) (id : Nat) : Option (Thread × RxeAsk) :=
  s.threads.findSome? (fun e => match e.2.run with
    | .parked (.rxe n ask) => if n = id then some (e.2, ask) else none
    | _ => none)

/-- Unexpected headers that a search examines. -/
def State.unexpSearched (s : State) (c : Ctx) (r : Recv) : Nat :=
  searched (fun h => r.matches h) ((s.eligible c).filter (fun h => h.drank == r.drank))

/-- A match unit takes a RECV: the first eligible message that matches is bound, or the receive is posted, or the posted list is
full (R266, R381, R382). -/
def State.unitRecv (s : State) (c : Ctx) (th : Thread) (id : Nat) (r : Recv) : State :=
  let s1 := s.unitTakes (dieOf r.core) (s.unexpSearched c r)
  match s.findMessage c r with
  | some h => (({ s1 with rxe := { s1.rxe with unexp := s1.rxe.unexp.filter (· != h) } }).bind r h true).answerAsk th id (.done none 0)
  | none =>
    if 4096 ≤ s.rxe.posted.length then s1.answerAsk th id (.full r.desc)
    else ({ s1 with rxe := { s1.rxe with posted := s1.rxe.posted ++ [r] } }).answerAsk th id (.done none 0)

/-- A match unit takes a PROBE (R270). -/
def State.unitProbe (s : State) (c : Ctx) (th : Thread) (id : Nat) (d : XReg) (r : Recv) : State :=
  (s.unitTakes (dieOf r.core) (s.unexpSearched c r)).answerAsk th id
    (.done (some d) (match s.findMessage c r with | some h => at_ h.len 0 | none => BitVec.allOnes 64))

/-- A RECV or PROBE reaches its unit, or its answer the thread (R266, R270, R281). -/
def State.askArrives (s : State) (th : Thread) (id : Nat) (ask : RxeAsk) : State :=
  let c := s.ctxOf th
  match ask with
  | .recv r => s.atUnit (dieOf r.core) (.ask id) (fun s1 => s1.unitRecv c th id r)
  | .probe d r => s.atUnit (dieOf r.core) (.ask id) (fun s1 => s1.unitProbe c th id d r)
  | .done none _ => s.wake th.id
  | .done (some d) v => s.wakeX th.id d v
  | .full a => if th.ovr then (s.count th.asid 13 1).wake th.id else s.trapParked th.id .refused a

/-- STAT0's cell (R266). -/
def State.stat0Cell (s : State) (core : Nat) (a : W64) : Nat :=
  cellOfLocs [s.ploc core (.store core (fld a 0 18 + 32))]

/-- RECV: STAT0's cell is emptied, and the thread parks until its match unit has bound a message or posted the receive (R266). -/
def execRecv (st : Stall) (a : XReg) (s : State) : Host.Outcome State Fault Refusal :=
  issue s st featMsg (.rd [a]) (fun s1 th =>
    let c := s1.ctxOf th
    let ad := th.getX a
    match descFault th.id.core ad 48 with
    | some k => .trap k ad
    | none =>
      s1.withWords th ad 6 (fun s1 w =>
      let r := recvOf c th ad w
      match s1.recvFault c th.id.core ad w r false with
      | some (k, v) => .trap k v
      | none => .ok ((s1.setFull (s1.stat0Cell th.id.core ad) false).askRxe th (.recv r))))

/-- PROBE: the thread parks until its match unit answers (R270). -/
def execProbe (st : Stall) (d a : XReg) (s : State) : Host.Outcome State Fault Refusal :=
  issue s st featMsg (.da d a 0) (fun s1 th =>
    let c := s1.ctxOf th
    let ad := th.getX a
    match descFault th.id.core ad 48 with
    | some k => .trap k ad
    | none =>
      s1.withWords th ad 6 (fun s1 w =>
      let r := recvOf c th ad w
      match s1.recvFault c th.id.core ad w r true with
      | some (k, v) => .trap k v
      | none => .ok (s1.askRxe th (.probe d r))))

/-! ### MBWAIT (R271) -/

/-- MBWAIT: the test is made at issue, behind the MBWAITs that are parked on the counter, and again at every change of the
counter (R271). With both operands out of range, TVAL is the first (log 128). -/
def execMbwait (st : Stall) (a b : XReg) (s : State) : Host.Outcome State Fault Refusal :=
  issue s st featMsg (.rd [a, b]) (fun s1 th =>
    let x := th.getX a
    let y := th.getX b
    if 256 ≤ x.toNat then .trap .illegal x
    else if 2 ^ 32 ≤ y.toNat then .trap .illegal y
    else if y = 0 then .ok s1
    else
      let f := s1.fresh
      let s2 := f.2.park th.id (.mbwait x.toNat y.toNat f.1)
      .ok (if s1.mailTaken th.id.core x.toNat then s2 else s2.poll th.id))

/-! ### MCAST (R273, R274) -/

/-- The ranks of a list, or the cores of a bitmap (R273). -/
def listRanks (b : List Byte) (n : Nat) : List Nat := (List.range n).map (fun i => leNat ((b.drop (2 * i)).take 2))
def bitmapCores (b : List Byte) : List Nat :=
  (List.range Config.cores).filter (fun i => (b.getD (i / 8) 0).getLsbD (i % 8))

/-- A MODE 1 landing address: offset DOFF of a core's local store. -/
def directAddr (core off : Nat) : W64 := at_ 1 61 ||| at_ core 48 ||| at_ off 0

/-- Bytes of the list (R273). -/
def listBytes (w : List W64) : Nat := if bit (w.getD 2 0) 24 then 576 else 2 * fld (w.getD 2 0) 25 7

/-- The fields of a multicast descriptor that break a limit (R258 step 2, R273): LIST must lie in the issuing core's local store. -/
def mcastIllegal (core : Nat) (w : List W64) : Bool :=
  let q := fun n => w.getD n 0
  let len := fld (q 1) 32 13
  let mode1 := bit (q 2) 24
  let count := fld (q 2) 25 7
  fld (q 1) 45 19 ≠ 0 || 4096 < len || fld (q 2) 41 23 ≠ 0 || fld (q 4) 18 14 ≠ 0 || fld (q 4) 32 32 = 0 ||
    (if mode1 then count ≠ 0 || fld (q 4) 0 3 ≠ 0 else count < 1 || 64 < count || fld (q 4) 0 18 ≠ 0) ||
    !messageSource core (q 0) len || bit (q 3) 63 || fld (q 3) 61 2 ≠ 1 || localCore core (q 3) ≠ core

/-- The first failure of MCAST before its list is read: limits, SRC, then LIST (log 128), which needs no alignment (R258, R273; log 107). -/
def State.mcastFault (s : State) (c : Ctx) (core : Nat) (a : W64) (w : List W64) : Option (Cause × W64) :=
  let q := fun n => w.getD n 0
  if mcastIllegal core w then some (.illegal, a)
  else match s.rangeFault c core (q 0) (fld (q 1) 32 13) true false with
    | some k => some (k, q 0)
    | none =>
      if fld (q 3) 18 30 ≠ 0 || 0x30000 < fld (q 3) 0 18 + listBytes w then some (.protect, q 3) else none

/-- The destinations that a list names: ranks, or the cores of a bitmap. -/
def mcastDests (w : List W64) (b : List Byte) : List Nat :=
  if bit (w.getD 2 0) 24 then bitmapCores b else listRanks b (fld (w.getD 2 0) 25 7)

/-- The first failure of MCAST once its list is read: the landing of each core in ascending order (R274; log 128), or each rank and then the
source rank (R260; log 108). -/
def State.destFault (s : State) (c : Ctx) (core : Nat) (a : W64) (w : List W64) (dests : List Nat) : Option (Cause × W64) :=
  let q := fun n => w.getD n 0
  let off := fld (q 4) 0 18
  match dests.findSome? (fun k =>
      if bit (q 2) 24 then
        ((s.rangeFault c core (directAddr k off) (fld (q 1) 32 13) false true).orElse (fun _ =>
          if c.holdsCore k then none else some .protect)).map (fun f => (f, directAddr k off))
      else s.rankFault c k) with
  | some f => some f
  | none => s.ownRankFault core (fld (q 2) 0 16) a

/-- Adds the records of the destinations of a multicast, numbered in order; the first record's number names the group. -/
def State.addBranches (s : State) (bound : Nat) (mk : State → Nat → Nat → SendRec × State) : Nat → Nat → Option Nat → List Nat × State
  | 0, _, _ => ([], s)
  | n + 1, i, first =>
    let f := s.fresh
    let m := mk f.2 f.1 i
    let s1 := m.2.addSend { m.1 with group := first.getD f.1 } bound
    let r := s1.addBranches bound mk n (i + 1) (some (first.getD f.1))
    (f.1 :: r.1, r.2)

/-- The record of one destination of a multicast; without a destination, the record of nobody (R274). -/
def State.branch (s : State) (c : Ctx) (th : Thread) (ad : W64) (w : List W64) (dests : List Nat) (st : State) (id i : Nat) :
    SendRec × State :=
  let q := fun n => w.getD n 0
  let mode1 := bit (q 2) 24
  let srank := fld (q 2) 0 16
  let d := dests.getD i 0
  let n := if mode1 then (0, st) else st.takeSeq (pairKey th.asid srank d)
  ({ id := id, kernel := th.kernel,
     hdr := headerOf s th (if mode1 then 0 else d) srank (BitVec.ofNat 32 (q 1).toNat) n.1 (fld (q 1) 32 13) .branch (q 0)
       (fld (q 2) 16 8) id (fld (q 4) 32 32),
     direct := if mode1 then
         some { core := d, off := fld (q 4) 0 18, mbox := fld (q 2) 32 8, fill := bit (q 2) 40 }
       else none,
     group := id, desc := ad, staged := false, asked := false, got := [], parts := [], accepted := false, counted := false, name := at_ d 0, nobody := dests.isEmpty,
     fate := .underWay, views := c.views, own := true, born := s.ticks }, n.2)

/-- MCAST: the thread parks until every destination has accepted; without one it parks until its source is read (R274). -/
def execMcast (st : Stall) (a : XReg) (s : State) : Host.Outcome State Fault Refusal :=
  issue s st featMsg (.rd [a]) (fun s1 th =>
    let c := s1.ctxOf th
    let ad := th.getX a
    match descFault th.id.core ad 40 with
    | some k => .trap k ad
    | none =>
      s1.withWords th ad 5 (fun s1 w =>
      match s1.mcastFault c th.id.core ad w with
      | some (k, v) => .trap k v
      | none =>
        s1.withRead th (w.getD 3 0) (s1.readList th (fld (w.getD 3 0) 0 18) (listBytes w)) (fun s1 b =>
        let dests := mcastDests w b
        match s1.destFault c th.id.core ad w dests with
        | some (k, v) => .trap k v
        | none =>
          let r := s1.addBranches (fld (w.getD 4 0) 32 32) (s1.branch c th ad w dests) (Nat.max 1 dests.length) 0 none
          .ok ((r.2.park th.id (.messageStores r.1 ad)).goMessage th.id r.1 ad))))

/-! ### COPY, CWAIT and CMAP (R275 to R280) -/

/-- COPY: with 64 copies of the core outstanding the thread parks (R276). -/
def execCopy (st : Stall) (a : XReg) (s : State) : Host.Outcome State Fault Refusal :=
  issue s st featCopy (.rd [a]) (fun s1 th =>
    let c := s1.ctxOf th
    let ad := th.getX a
    match descFault th.id.core ad 40 with
    | some k => .trap k ad
    | none =>
      s1.withWords th ad 5 (fun s1 w =>
      let r := copyOf c th w
      match s1.copyFault c th.id.core ad w r with
      | some (k, v) => .trap k v
      | none =>
        let r1 := { r with channel := s1.sourceChannel c th.id.core r.src,
                           m0 := fld r.dst 0 18 / 512 - (s1.chunkMap r.dcore r.map).base.toNat,
                           chunks := List.range r.chunkCount }
        if 64 ≤ s1.copiesOf th.id.core then .ok (s1.park th.id (.copyFull r1)) else .ok (s1.startCopy th.id r1)))

/-- CWAIT (R280). -/
def execCwait (st : Stall) (d a b : XReg) (s : State) : Host.Outcome State Fault Refusal :=
  issue s st featCopy (.dab d a b 0) (fun s1 th =>
    let x := th.getX a
    if 16 ≤ x.toNat then .trap .illegal x
    else .ok ((s1.park th.id (.cwait x.toNat (th.getX b) d)).poll th.id))

/-- CMAP (R36, R279). With both operands out of range, TVAL is the first (log 128). -/
def execCmap (st : Stall) (a b : XReg) (s : State) : Host.Outcome State Fault Refusal :=
  issue s st featCopy (.rd [a, b]) (fun s1 th =>
    let x := th.getX a
    let y := th.getX b
    if 16 ≤ x.toNat then .trap .illegal x
    else if 384 ≤ y.toNat then .trap .illegal y
    else .ok (s1.putMap th.id.core x.toNat ((s1.chunkMap th.id.core x.toNat).clear s1.ticks (BitVec.ofNat 9 y.toNat))))

/-! ### Events of messages -/

/-- A MODE 1 payload reaches its core: it is accepted, and lands as an access of the sender's core (R38, R274). -/
def State.directArrive (s : State) (m : SendRec) (d : Direct) : State :=
  let f := s.fresh
  let r : Recv := { asid := m.hdr.asid, core := d.core, dest := directAddr d.core d.off, tag := 0, tmask := 0, src := 0,
                    smask := 0, drank := 0, mbox := d.mbox, fill := d.fill, maxlen := m.hdr.len, desc := 0,
                    writer := m.hdr.tid.core, views := [], kernel := m.kernel }
  let l : Landing := { id := f.1, hdr := m.hdr, recv := r, status := true, packets := List.range (packetCount m.hdr.len),
                       held := [], homes := [], pull := false, units := false, started := true, born := s.ticks }
  let s1 := { f.2 with rxe := { f.2.rxe with landings := f.2.rxe.landings ++ [l] } }
  ((s1.setSend { m with accepted := true }).enginePacket (clusterOf d.core) (clusterOf m.hdr.tid.core) (s.plannedKernel m.kernel) 16 0 rankEngine
    (.acceptanceReply m.id)).setOut l (clusterOf m.hdr.tid.core)

/-- Whether the context of a header has ended here: its headers are dropped and counted (R387). -/
def State.endedFor (s : State) (h : Header) : Bool := (s.ctx? h.asid).any (fun c => c.phase == .ended || c.phase == .destroying)

/-- A header arrives, or is taken from those that wait at its unit; the header of an expired message is gone (R264, R387); one that is not
for this package is dropped and counted (R452). -/
def State.headerArrives (s : State) (h : Header) (waited : Bool) : State :=
  if h.target ≠ s.ni.peer then s.count h.asid 14 1
  else if h.srcPeer = s.ni.peer && h.via.isNone then
    match s.send? h.sendId with
    | none => if s.endedFor h then s.rxeArrive h waited else s
    | some m =>
      if m.accepted || m.fate != SendFate.underWay then s
      else match m.direct with
        | some d => s.directArrive m d
        | none => s.rxeArrive h waited
  else s.rxeArrive h waited

/-- A header of the same sender and a lower number that arrives in this tick too (R381). -/
def State.firstOfSender (s : State) (h : Header) : Option Header :=
  s.sched.agenda.findSome? (fun e => match e with
    | .headerArrival g => if g.srcPeer = h.srcPeer && g.tid = h.tid && g.seq < h.seq then some g else none
    | _ => none)

/-- HEADER_ARRIVAL (R264, R381): those of one sender in one tick in ascending number. -/
def execHeaderArrival (h : Header) (s : State) : Host.Outcome State Fault Refusal :=
  .next (match s.firstOfSender h with
    | some g => { s with sched := { s.sched with
        agenda := [.headerArrival g, .headerArrival h] ++ s.sched.agenda.filter (· != .headerArrival g) } }
    | none => s.headerArrives h false)

/-- A match unit takes an event that waited. -/
def State.unitTake (s : State) (w : UnitWork) : State :=
  match w with
  | .header h => s.headerArrives h true
  | .step h => s.unitStep h
  | .ask id => match s.asker? id with
    | some (th, .recv r) => s.unitRecv (s.ctxOf th) th id r
    | some (th, .probe d r) => s.unitProbe (s.ctxOf th) th id d r
    | _ => s

/-- The match units at the start of a tick: each that is free takes what waits, in order (R381). -/
def State.unitTicks : Nat → State → State
  | 0, s => s
  | n + 1, s => match s.rxe.waiting.find? (fun w => s.rxe.busy.getD w.1 0 ≤ s.ticks) with
    | some w => State.unitTicks n (({ s with rxe := { s.rxe with waiting := s.rxe.waiting.erase w } }).unitTake w.2)
    | none => s

/-- The header of a rank that has migrated away, kept here under a number until the rank's package accepts it (R387). -/
def State.forwarded? (s : State) (id : Nat) : Option Header := s.rxe.unexp.find? (fun h => h.via == some (s.ni.peer, id))

/-- HEADER_RESEND: the source is read and the header leaves, or a refused header leaves again (R263, R264, R387). -/
def execHeaderResend (id : Nat) (s : State) : Host.Outcome State Fault Refusal :=
  .next ((match s.forwarded? id with
    | some h => match s.rank? h.drank with
      | some e => s.tell e.peer (.header { h with target := e.peer })
      | none => s
    | none => match s.send? id with
      | none => s
      | some m => if m.accepted || m.fate != SendFate.underWay then s else s.stageSend m).pollAll)

/-- SEND_BOUND_EXPIRY (R264, R274, R281). -/
def execSendBoundExpiry (id : Nat) (s : State) : Host.Outcome State Fault Refusal :=
  .next (match s.send? id with
    | none => s
    | some m => ((s.sendExpired m).tryRetire m.kernel).pollAll)

/-- ABANDON_NOTICE: the number counts as queued, and the header leaves the reorder stage; another package is told what became of
its message: accepted in time, or abandoned (R264, R383). The notice of a rank that has migrated goes on to its package. -/
def execAbandonNotice (asid srank drank : Nat) (n : SentNumber) (s : State) : Host.Outcome State Fault Refusal :=
  let key := pairKey asid srank drank
  let answer := fun (s : State) (m : MsgOut) => if n.peer = s.ni.peer then s else s.tell n.peer m
  .next (match (s.rank? drank).filter (fun e => e.peer ≠ s.ni.peer) with
    | some e => s.tell e.peer (.abandon asid srank drank n)
    | none => if s.numberTaken key n.seq then answer s (.accepted n.sendId)
    else answer (({ s with rxe := { s.rxe with
      staged := s.rxe.staged.filter (fun h => !(headerPair h == key && h.seq == n.seq)),
      refusals := s.rxe.refusals.filter (fun r => !(r.pair == key && r.seq == n.seq)) } }).takeNumber key n.seq) (.abandoned n.sendId))

/-- ACCEPTANCE_REPLY: the parked SEND or MCAST wakes with its last acceptance (R263, R274); a RECV or PROBE reaches its match
unit, or the unit's answer its thread (R266, R270); a forwarded header frees its place (R387). -/
def execAcceptanceReply (id : Nat) (s : State) : Host.Outcome State Fault Refusal :=
  .next (match s.asker? id with
    | some x => (s.askArrives x.1 id x.2).pollAll
    | none => match s.forwarded? id with
      | some h => { s with rxe := { s.rxe with unexp := s.rxe.unexp.filter (· != h) } }
      | none => match s.send? id with
        | none => s
        | some m => ((s.acceptKnown id).tryRetire m.kernel).pollAll)

/-- The views of a message that is sent from here. -/
def State.pullViews (s : State) (id : Nat) : Tab (W64 × W64) := match s.send? id with | some m => m.views | none => []

/-- The request of a pull of n bytes of a message (R385, R389). -/
def pullOf (views : Tab (W64 × W64)) (h : Header) (n : Nat) (dest : W64) (core : Nat) (fill : Bool) (pull : Option Nat) (far : Option FarPull) : CopyReq :=
  { id := 0, far := far, tileDue := 0, kernel := 0, tid := h.tid, asid := h.asid, channel := 0, src := h.saddr, dst := dest,
    dcore := core, len := n, map := 0, m0 := 0, fill := fill, conv := false, half := false, planes := 0, kb := 0, scale := 0, seq := 0,
    slen := 0, after := [], queued := false, active := false, tilePlaced := false, got := [], pois := [], chunks := [], own := false, pull := pull,
    views := views, span := 0, limit := 0, rowIds := [], born := 0 }

/-- A pull travels to the streamer of the channel that holds its source's first byte (R385). -/
def State.offerPull (s : State) (r : CopyReq) (home : Nat) (kernel : Option Nat) : State :=
  let f := s.fresh
  let r1 := { r with id := f.1, born := s.ticks, channel := s.sourceChannel (viewsOnly r.views) r.tid.core r.src }
  ({ f.2 with copies := f.2.copies ++ [r1] }).enginePacket home (streamerHome r1.channel) kernel 64 0 rankEngine (.copyRequestArrival f.1)

/-- PULL_REQUEST: the payload of a rendezvous message is asked for from the streamer of its source's channel, or from the
sender's package; the request of another package goes to a streamer of this one (R385). -/
def execPullRequest (ask : PullAsk) (s : State) : Host.Outcome State Fault Refusal :=
  .next (match ask with
    | .landing id => match s.landing? id with
      | none => s
      | some l =>
        if l.hdr.srcPeer ≠ s.ni.peer then
          s.tell l.hdr.srcPeer (.pull { peer := s.ni.peer, landing := id, sendId := l.hdr.sendId, len := l.bytes, dest := l.recv.dest,
                                        mbox := l.recv.mbox, fill := l.recv.fill, tid := l.hdr.tid, cmbox := l.hdr.cmbox })
        else if l.bytes = 0 then s.later 0 rankLand (.rendezvousPullRead l.hdr.sendId 0)
        else s.offerPull (pullOf (s.pullViews l.hdr.sendId) l.hdr l.bytes l.recv.dest l.recv.core l.recv.fill (some id) none)
          (rxeHome (dieOf l.recv.core)) (s.plannedKernel l.recv.kernel)
    | .far p => match s.send? p.sendId with
      | none => s
      | some m =>
        if p.len = 0 then (s.tell p.peer (.payload p.landing 0 [] [])).later 0 rankLand (.rendezvousPullRead p.sendId 0)
        else s.offerPull (pullOf m.views m.hdr p.len p.dest m.hdr.tid.core p.fill none (some p)) (rxeHome (dieOf m.hdr.tid.core))
          (s.plannedKernel m.kernel))

/-- The streamer of a pull, or a die's match unit: where the packets of a landing set out. -/
def State.landingHome (s : State) (l : Landing) : Nat :=
  match s.copies.find? (fun (r : CopyReq) => r.pull == some l.id) with
  | some r => streamerHome r.channel
  | none => rxeHome (dieOf l.recv.core)

/-- RENDEZVOUS_PULL_READ: the last byte is read and the completion counter rises (R263, R385); a payload without a byte lands as one
packet (R269). -/
def execRendezvousPullRead (id len : Nat) (s : State) : Host.Outcome State Fault Refusal :=
  .next (match s.send? id with
    | none => s
    | some m =>
      let s1 := s.mailAdd m.hdr.tid.core m.hdr.cmbox
      let s2 := if m.accepted && !(s1.waiter? id).isSome then s1.dropSend id else s1.setSend { m with counted := true }
      let s3 := match s2.rxe.landings.find? (fun l => l.hdr.srcPeer == s.ni.peer && l.hdr.sendId == id && l.pull) with
        | some l =>
          let l1 := { l with pull := false }
          let s4 := s2.setLanding l1
          if len = 0 then s4.setOut l1 (s.landingHome l) else s4
        | none => s2
      (s3.tryRetire m.kernel).pollAll)

/-- STATUS_FILL: STAT1 then STAT0, whose cell is set full (R269). -/
def execStatusFill (id : Nat) (s : State) : Host.Outcome State Fault Refusal :=
  .next (match s.landing? id with
    | none => s
    | some l =>
      let c := viewsOnly l.recv.views
      let a := l.recv.desc
      let stat0 := at_ l.hdr.tag.toNat 0 ||| at_ l.hdr.srank 32 ||| atB (l.recv.maxlen < l.hdr.len) 48
      let s1 := s.engineWrite c l.recv.writer (a + 40) (leBytes 8 l.hdr.len) false
      let s2 := s1.engineWrite c l.recv.writer (a + 32) (leBytes 8 stat0.toNat) true
      let l1 := { l with status := true }
      ((s2.setLanding l1).setOut l1 (s.landingHome l)).startNext l.hdr.asid)

/-- The bytes of a packet as its parts land, and the offsets of the poisoned cells met: from an eager unit, from the payload, or as another
package has pushed them (R385, R386). -/
def State.packetBytes (s : State) (l : Landing) (q : Nat) (data : LandPart) : List Byte × List Nat :=
  let n := (l.offsets q).length
  let u := s.unitBytes l.hdr q n
  if s.pushed l then (data.bytes, data.pois)
  else if l.units then (u.1, l.hdr.pois ++ u.2)
  else ((l.hdr.payload.drop (512 * q)).take n, l.hdr.pois)

/-- A packet has landed whole: its eager unit is free, and the mailbox counter rises (R269, R274, R385). -/
def State.packetDone (s : State) (l : Landing) (q : Nat) : State :=
  let s1 := match (if l.units then l.hdr.units[q]? else none) with
    | some unit => s.freeUnit unit
    | none => s
  (((s1.mailAdd l.recv.core l.recv.mbox).setLanding { l with
    packets := l.packets.filter (· != q), homes := l.homes.filter (fun e => e.1 != q) }).startNext l.hdr.asid).pollAll

/-- A part of a packet lands at its home: the bytes, then the cells full; poisoned cells land as zero and are counted (R269, R385, R386). -/
def State.landPart (s : State) (l : Landing) (q : Nat) (data : LandPart) : State :=
  let os := (l.offsets q).filter (fun o => s.landsHome l o == data.home)
  let b := s.packetBytes l q data
  let fresh := if l.units && !s.pushed l then ((s.unitBytes l.hdr q (l.offsets q).length).2.filter os.contains).length else 0
  let s1 := ((s.count l.hdr.asid 8 fresh).count l.hdr.asid 10 (b.2.filter os.contains).length).writePlaces (viewsOnly l.recv.views)
    l.recv.writer l.recv.dest (os.map (fun o => (o, b.1.getD (o - 512 * q) 0))) l.recv.fill
  let left := l.homes.filter (· != (q, data.home))
  if left.any (fun e => e.1 == q) then s1.setLanding { l with homes := left } else s1.packetDone l q

/-- PACKET_LANDING: a part of a packet lands, and with the last of them the packet (R269, R274, R385); a packet that another package
pushes comes in at its gateway and goes on to the homes of its bytes, once the status is filled. -/
def execPacketLanding (id q : Nat) (data : LandPart) (s : State) : Host.Outcome State Fault Refusal :=
  .next (match s.landing? id with
    | none => s
    | some l =>
      if !l.packets.contains q then s
      else if l.homes.contains (q, data.home) then s.landPart l q data
      else if !s.pushed l || l.homes.any (fun e => e.1 == q) || l.held.any (fun e => e.1 == q) then s
      else if l.status then s.setOutPacket l q (gateHome + s.gate l.hdr.srcPeer) 0 data
      else s.setLanding { l with held := l.held ++ [(q, data)] })

/-! ### Events of streamers -/

/-- COPY_REQUEST_ARRIVAL (R276, R389). -/
def execCopyRequestArrival (id : Nat) (s : State) : Host.Outcome State Fault Refusal :=
  .next (match s.copy? id with
    | some r => if r.queued then s else s.offerCopy r
    | none => s)

/-- STREAMER_RETRY (R389). -/
def execStreamerRetry (id : Nat) (s : State) : Host.Outcome State Fault Refusal :=
  .next (match s.copy? id with
    | some r => if r.queued then s else s.offerCopy r
    | none => s)

/-- SCALE_TILE_PLACE: the streamer asks for the side band, or the tile has crossed it (R370, R392, R409). -/
def execScaleTilePlace (id : Nat) (s : State) : Host.Outcome State Fault Refusal :=
  .next (match s.copy? id with
    | some r => if r.tilePlaced then s else if r.tileDue = 0 then s.askBand r else if s.ticks < r.tileDue then s else s.tileArrives r
    | none => s)

/-- The matrix instruction that runs on a row now counts for the copies that land in its cores (R394). -/
def State.countRunning (s : State) (row : Nat) : State :=
  match (s.row row).queue with
  | f :: _ => if f.begun then s.extendCopies row f.id f.worstTicks else s
  | [] => s

/-- CHUNK_LANDING: a chunk lands; when matrix instructions of the destination's row have run, the row array may have been served
first at the engine port, until the limit (R390, R394). -/
def execChunkLanding (id c : Nat) (s : State) : Host.Outcome State Fault Refusal :=
  .next (match s.copy? id with
    | none => s
    | some r =>
      if !r.chunks.contains c then s
      else
        let s1 := s.countRunning (r.dcore / 4)
        let r1 := (s1.copy? id).getD r
        let d := s1.draw 2
        if r1.rowIds.isEmpty || r1.limit ≤ s.ticks then (s1.landChunk r1 c).pollAll
        else if d.1 = 0 then (d.2.landChunk r1 c).pollAll
        else d.2.later (r1.limit - s.ticks) rankLand (.chunkLanding id c))

end Sys2Proof.Machine
end

