-- ==== Sys2Proof/Machine/Regions.lean ====
section
/-! DEFINITION. Meanings of TOPEN and TCLOSE, the overrun of regions and the release of held stores (spec 08 R214 to
R220; 16 R349). -/

namespace Sys2Proof.Machine

/-- Ticks until the maximum of the innermost region (R26). -/
def Thread.left (th : Thread) (now : Nat) : Nat :=
  match th.regions with
  | r :: _ => r.openTick + r.max - now
  | [] => 0

/-- The handler descriptor of a region: HADDR × 4, HBOUND, and whether its reserved bits are zero (R214). -/
def State.handlerDesc (s : State) (core desc : Nat) : Nat × Nat × Bool :=
  let w0 : W64 := (s.codeWord core (desc * 4)).zeroExtend 64
  (fld w0 2 16 * 4, (s.codeWord core (desc * 4 + 4)).toNat, fld w0 0 2 = 0 && fld w0 18 14 = 0)

/-- The checks of TOPEN in order (R215). -/
def State.topenFault (s : State) (th : Thread) (d a b : W64) : Option (Cause × W64) :=
  let c := s.ctxOf th
  let desc := fld d 2 16
  let h := s.handlerDesc th.id.core desc
  let need := b.toNat + h.2.1
  if fld d 18 46 ≠ 0 || bit d 1 then some (.illegal, d)
  else if fld a 32 32 ≠ 0 then some (.illegal, a)
  else if fld b 32 32 ≠ 0 then some (.illegal, b)
  else if b.toNat < a.toNat then some (.illegal, a)
  else if !c.loaded (desc * 4) then some (.protect, at_ (desc * 4) 0)
  else if !c.loaded (desc * 4 + 4) then some (.protect, at_ (desc * 4 + 4) 0)
  else if !c.loaded h.1 then some (.protect, at_ h.1 0)
  else if !h.2.2 || h.2.1 = 0 then some (.illegal, at_ (desc * 4) 0)
  else if th.depth = 4 then some (.nesting, 4)
  else if th.depth = 0 then (if th.cap < need then some (.refused, at_ need 0) else none)
  else if th.left s.ticks < need then some (.nesting, at_ need 0)
  else none

/-- TOPEN (R214 to R216). -/
def execTopen (st : Stall) (d a b : XReg) (s : State) : Host.Outcome State Fault Refusal :=
  issue s st (some 5) (.rd [d, a, b]) (fun s1 th =>
    match s1.topenFault th (th.getX d) (th.getX a) (th.getX b) with
    | some (c, v) => .trap c v
    | none =>
      let r : Region := { openTick := s1.ticks, min := (th.getX a).toNat, max := (th.getX b).toNat, hold := bit (th.getX d) 0,
                          hnd := false, desc := fld (th.getX d) 2 16 }
      .ok ((s1.modThread th.id (fun u => { u with regions := r :: u.regions })).after_ r.max rankOverrun (.overrun th.id)))

/-- TCLOSE: the thread parks until the close instant (R217). -/
def execTclose (st : Stall) (d : XReg) (s : State) : Host.Outcome State Fault Refusal :=
  issue s st (some 5) (.d d 0) (fun s1 th =>
    match th.regions with
    | [] => .trap .nesting 0
    | r :: _ =>
      .ok ((s1.park th.id (.tclose d (s1.ticks - r.openTick))).sched_ (Nat.max s1.ticks (r.openTick + r.min)) rankClose
        (.tcloseCloseInstant th.id)))

/-- The stores held on account of entries at depth d or above are released from this tick, one per tick, but for those whose
release an earlier close has scheduled (R217 to R219). -/
def State.releaseHeld (s : State) (t : Tid) (d : Nat) : State :=
  match s.thread? t with
  | none => s
  | some th =>
    let now := fun (e : StoreEntry) => !e.rel && match e.held with | some h => d ≤ h | none => false
    let mine := th.sbuf.filter now
    (mine.zip (List.range mine.length)).foldl (fun st p => st.after_ p.2 rankClose (.heldStoreRelease t p.1.id))
      (s.modThread t (fun u => { u with sbuf := u.sbuf.map (fun e => if now e then { e with rel := true } else e) }))

/-- HELD_STORE_RELEASE: the store takes its place in program order and leaves (R218, R286). -/
def execHeldStoreRelease (t : Tid) (id : Nat) (s : State) : Host.Outcome State Fault Refusal :=
  .next (match s.thread? t with
    | none => s
    | some th =>
      match findEntry id [] th.sbuf with
      | none => s
      | some (_, e) =>
        (s.modThread t (fun u => { u with sbuf := u.sbuf.filter (fun x => !(x.id == id)) ++ [{ e with held := none, rel := false }] })).sendStores t)

/-- TCLOSE_CLOSE_INSTANT: the held stores of this close are released, the entry is popped, and the thread wakes: its next
instruction issues one tick later or after (R217). -/
def execTcloseCloseInstant (t : Tid) (s : State) : Host.Outcome State Fault Refusal :=
  .next (match s.thread? t with
    | none => s
    | some th =>
      match th.run with
      | .parked (.tclose d e) =>
        let s1 := s.releaseHeld t th.depth
        (s1.modThread t (fun u => { u with regions := u.regions.drop 1, gapUntil := Nat.max u.gapUntil (s.ticks + 1) })).wakeX t d
          (at_ e 0)
      | _ => s)

/-- The waiting entry, at this package's own places, of a full/empty access that went by this NI (R43, R182). -/
def State.ownGlobalWait (s : State) (a : Access) : Option FeEntry :=
  match a.lanes with
  | [l] => match l.sent with
    | some k => s.waits.find? (fun w => match w.remote with
      | some r => r.src == s.ni.peer && k == (s.ni.peer, r.seq)
      | none => false)
    | none => none
  | _ => none

/-- Withdraws the wait of a parked thread if it has had no effect (R219, step 2); none when it has, or when another package
is to be asked. -/
def State.withdrawWait (s : State) (th : Thread) : Option State :=
  let back := fun (st : State) => some (st.takeBack th)
  match th.run with
  | .parked (.feWait _ _) => back (s.leaveWait th.id)
  | .parked (.feRefused _ _) => if s.sched.timers.any (fun x => x.2.2 == .feRetry th.id) then back (s.leaveWait th.id) else none
  | .parked (.mbwait _ _ _) | .parked (.cwait _ _ _) => back s
  | .parked (.gbar g _ arrived) =>
    if s.gbarOpen th g arrived then back (if arrived then s.gbarWithdrawn th g else s) else none
  | .parked (.access a) =>
    match s.ownGlobalWait a, (a.lanes.head?.bind (·.sent)) with
    | some w, some k => back ({ s with waits := s.waits.filter (fun x => !(x.id == w.id)) }.dropReq k.1 k.2)
    | none, some k =>
      if k.1 = s.ni.peer && s.sched.timers.any (fun x => x.2.2 == .niRetry k.1 k.2) then back (s.cancelTimer (.niRetry k.1 k.2)) else none
    | _, none => none
  | .parked (.matrix _) => back (s.mxWithdraw th.id)
  | .parked (.tclose _ _) => back (s.cancelTimer (.tcloseCloseInstant th.id))
  | .followWait _ => back s
  | _ => none

/-- The request of a waiting full/empty access that stands at another package (R43, R181). -/
def State.farWait (s : State) (a : Access) : Option (Nat × Nat × W64) :=
  match a.lanes with
  | [l] => match l.sent with
    | some (p, n) => if isWaiting l.op && p ≠ s.ni.peer && l.val.isNone then some (p, n, l.addr) else none
    | none => none
  | _ => none

/-- A wait that another package keeps is asked back, once: a full/empty access of its NI, an arrival of the root of the group
(R219, R354; log 53). The thread stays parked until the answer, or until what it waits for. -/
def State.askBack (s : State) (th : Thread) : State :=
  match th.run with
  | .parked (.access a) =>
    match s.farWait a with
    | some (p, n, ad) =>
      if s.ni.out.any (fun o => o.req.target == p && o.req.op == .withdraw n) then s
      else
        let s1 := s.cancelTimer (.niRetry p n)
        (s1.requestAs th ad (.withdraw n) 0 false none none true a.bounded).2
    | none => s
  | .parked (.gbar g _ true) =>
    let r := s.group th.asid g
    if r.isOpen && r.sent && !r.recalls.contains th.id && r.arrivals.any (fun x => x.tid == th.id && x.byGbar) then
      (s.putGroup th.asid g { r with recalls := r.recalls ++ [th.id] }).tell (s.rootOf r) (.arrival th.asid g .recall)
    else s
  | _ => s

/-- The outermost entry that reaches its maximum now: its depth and itself. An entry whose TCLOSE has issued does not
overrun (R217, R219). -/
def Thread.overrunning (th : Thread) (now : Nat) : Option (Nat × Region) :=
  let closing := match th.run with | .parked (.tclose _ _) => th.depth | _ => 0
  ((th.regions.reverse.zip ((List.range th.depth).map (· + 1))).find? (fun p =>
    p.1.openTick + p.1.max ≤ now && p.2 ≠ closing)).map (fun p => (p.2, p.1))

/-- The words of an overrun in the trap registers (R219, step 5). -/
def Thread.overrunRegs (th : Thread) (epc d max : Nat) : Thread :=
  { th with csr := { th.csr with tepc := at_ (epc / 4 % 2 ^ 16) 2, tcause := at_ Cause.overrun.code 0 ||| at_ 1 8,
                                 tval := at_ max 0 ||| at_ d 32 } }

/-- An entry overruns (R219): the wait is withdrawn or runs out, the entries above go, the stores they held are released,
the handler entry takes the place, and control passes to the handler. -/
def State.overrunEntry (s : State) (t : Tid) (d : Nat) (r : Region) : State :=
  match s.thread? t with
  | none => s
  | some th0 =>
    let th := th0.abandon
    let sa := s.putThread th
    let epc := firstUnissued sa th
    let s0 := (match th.gang with
      | .none => sa
      | _ => sa.dissolve th).modThread t (fun u => { u with pc := epc, after := none })
    match s0.thread? t with
    | none => s0
    | some th1 =>
      let w := s0.withdrawWait th1
      let s1 := w.getD (s0.askBack th1)
      let parked := match th1.run with | .ready => false | .stopped => false | _ => w.isNone
      let h := s1.handlerDesc t.core r.desc
      let s2 := (s1.modThread t (fun u => { u with
          regions := { openTick := s.ticks, min := 0, max := h.2.1, hold := false, hnd := true, desc := 0 } ::
            u.regions.drop (u.depth + 1 - d) })).releaseHeld t d
      let s3 := s2.modThread t (fun u =>
        let v := u.overrunRegs u.pc d r.max
        { v with
          pc := h.1, ovr := parked, pairs := [], entry := none,
          gapUntil := Nat.max (Nat.max u.gapUntil (s.ticks + 1)) u.lastLanding,
          run := match u.run with
            | .parked (.storeFull e) => .parked (.storeFull { e with rel := e.held.any (fun k => d ≤ k) })
            | x => x })
      s3.after_ h.2.1 rankHandlerOverrun (.handlerOverrun t)

/-- OVERRUN: TICKS reaches the maximum of an entry whose TCLOSE has not issued (R219). -/
def execOverrun (t : Tid) (s : State) : Host.Outcome State Fault Refusal :=
  .next (match s.thread? t with
    | none => s
    | some th =>
      match th.overrunning s.ticks with
      | some (d, r) => if r.hnd || th.run = .stopped then s else s.overrunEntry t d r
      | none => s)

/-- HANDLER_OVERRUN: a handler region that reaches its maximum ends the context (R219). -/
def execHandlerOverrun (t : Tid) (s : State) : Host.Outcome State Fault Refusal :=
  .next (match s.thread? t with
    | none => s
    | some th =>
      let closing := match th.run with | .parked (.tclose _ _) => th.depth | _ => 0
      match (th.regions.reverse.zip ((List.range th.depth).map (· + 1))).find? (fun p =>
          p.1.hnd && p.1.openTick + p.1.max = s.ticks && p.2 ≠ closing) with
      | some (r, d) => s.fatalThread th .handleroverrun (at_ r.max 0 ||| at_ d 32) (s.faultPc th)
      | none => s)

end Sys2Proof.Machine
end

