-- ==== Sys2Proof/Machine/Queue.lean ====
section
/-! DEFINITION. Meanings of the queue registers, the packets, dispatch and thread creation (spec 12 R299, R300; 14 R307, R311,
R325; 15 R326 to R338, R474; 22 R404). -/

namespace Sys2Proof.Machine

/-! ### Starts (R327) -/

/-- Whether a queue's head packet can be parsed: the queue runs, its context is live and not being saved (R336). -/
def State.startable (s : State) (r : QueueRec) : Bool :=
  r.en && r.state.toNat < 2 && r.packet.isNone && r.nonempty &&
    match s.ctx? r.ctx with
    | some c => c.phase == .live
    | none => false

/-- The queue that starts next: highest PRIO, then round-robin after the queue served last. -/
def State.chooseQueue (s : State) : Option Nat :=
  let l := s.queues.filter (fun e => s.startable e.2)
  let top := l.foldl (fun n e => Nat.max n e.2.prio) 0
  let c := l.filter (fun e => e.2.prio == top)
  match c.find? (fun e => s.qp.last < e.1) with
  | some e => some e.1
  | none => c.head?.map (·.1)

/-- The event that executes a packet. -/
def packetEvent (q : Nat) (w : W64) : Option Instr :=
  match packetType w with
  | 1 => some (.launch q)
  | 2 => some (.fencePacket q)
  | 3 => some (.signal q)
  | 4 => some (.pin q)
  | 5 => some (.unpin q)
  | 6 => some (.viewdef q)
  | 7 => some (.codeload q)
  | 8 => some (.detlvl q)
  | 9 => some (.slotplan q)
  | _ => none

/-- QUEUE_PACKET_START: the chosen queue's head packet is parsed; its slots are read once (R326, R327). -/
def execQueuePacketStart (s : State) : Host.Outcome State Fault Refusal :=
  .next (match s.chooseQueue with
    | none => s
    | some q =>
      let r := s.queue q
      let n := slotsOf (wordAt (s.slotWords r 0) 0)
      let ws := (List.range n).flatMap (s.slotWords r)
      let s1 := { s.putQueue q { r with packet := some ws, slots := n, state := 1, mark := s.sched.ids, begun := false,
                                        cond := 0, req := none, acc := none } with
        qp := { s.qp with last := q, lastTick := s.ticks } }
      match packetEvent q (wordAt ws 0) with
      | some e => s1.sched_ s.ticks rankLast e
      | none => s1.rejectPacket q codeFormat)

/-- Runs the operation of a parsed packet of a type, with its context. -/
def State.withPacket (s : State) (q ty : Nat) (f : Ctx → List W64 → State) : State :=
  let r := s.queue q
  match r.packet, s.ctx? r.ctx with
  | some ws, some c => if packetType (wordAt ws 0) = ty && c.phase == .live then f c ws else s
  | _, _ => s

/-! ### LAUNCH, dispatch, creation (R330, R333, R334) -/

/-- A parsed LAUNCH is accepted: the kernel waits for its dispatch, tried at once (R330, R333). -/
def State.launchNow (s : State) (q : Nat) : State :=
  s.withPacket q 1 (fun c ws =>
    let k := launchKernel q c.asid c.level ws (s.launchList ws)
    match s.launchFault c ws k with
    | some e => s.rejectPacket q e
    | none =>
      let f := s.fresh
      ({ f.2 with kernels := f.2.kernels.put f.1 k }.packetWaits q).sched_ s.ticks rankLast (.dispatch f.1))

/-- LAUNCH (R330, R333). -/
def execLaunch (q : Nat) (s : State) : Host.Outcome State Fault Refusal := .next (s.launchNow q)

/-- The rows and clusters of a placement are taken for the context (R12, R46, R333). -/
def State.takeCores (s : State) (asid exch : Nat) (cores : List Nat) : State :=
  let s1 := ((cores.map (· / 4)).eraseDups).foldl (fun (st : State) (r : Nat) => st.holdRow asid r exch) s
  ((cores.map clusterOf).eraseDups).foldl (fun (st : State) (n : Nat) => st.holdCluster asid n) s1

/-- The dispatch tick: at DET2 a multiple of 65,536 (R334). -/
def dispatchTick (now : Nat) (level : BitVec 2) : Nat := if level = 2 then (now + 65535) / 65536 * 65536 else now

/-- The .local image of a launch comes into a core on which its threads are placed, before they issue (R58, R60); a core that only a
spawned or a migrated thread reaches gets none (log 82). -/
def State.loadLocal (s : State) (k core : Nat) : State :=
  (Config.localImage k).foldl (fun st e =>
    let ps := (List.range 8).map (fun i => st.ploc core (.store core (8 * (e.1 % 24576) + i)))
    (st.setMem (st.mem.writePs ps e.2.1)).setFull (cellOfLocs ps) e.2.2) s

/-- The saved contexts whose restore precedes a launch that would take one of their rows: every row of theirs is free, and
the launch's priority is not higher (R336). -/
def State.restoresFirst (s : State) (prio : Nat) (rows : List Nat) : List Nat :=
  (s.ctxs.filter (fun e => e.2.phase == .saved && prio + 1 ≤ s.ctxPrio e.1 && e.2.rows.all s.rowFree &&
    e.2.rows.any rows.contains)).map (·.1)

/-- A LAUNCH accepted before the context held a row is rejected at its dispatch when its EXCH is not the E of the cores that
the context holds by then (R38, R328; log 117). -/
def State.rejectExch (s : State) (k : Nat) (r : Kernel) : State :=
  ({ s with kernels := s.kernels.erase k }.rejectPacket r.queue codeExch).retryQueues

/-- A launch is placed when all its threads fit, else it waits, and may pre-empt (R333, R335, R404); a saved context of its
priority or a higher one is restored first (R336). -/
def State.dispatchNow (s : State) (k : Nat) : State :=
  match s.kernels.find? k with
  | none => s
  | some r =>
    match s.ctx? r.asid with
    | none => s
    | some c =>
      if r.phase ≠ .waiting || c.phase ≠ .live || s.planHeld k r then s
      else if !c.rows.isEmpty && c.exch ≠ r.exch then s.rejectExch k r
      else match s.placeNow c r, s.restoresFirst (s.queue r.queue).prio (((s.placeNow c r).getD []).map (·.1 / 4)) with
        | none, _ => s.preemptFor c r
        | some _, a :: l => (a :: l).foldl (fun (st : State) (n : Nat) => st.sched_ st.ticks rankEngine (.restore n)) s
        | some l, [] =>
          let td := dispatchTick s.ticks r.detlvl
          let s1 := ((l.map (·.1)).eraseDups).foldl (fun st core => st.loadLocal k core)
            (s.takeCores r.asid r.exch (l.map (·.1)))
          let r1 := { r with phase := .dispatched, dispatchTick := td,
                             placed := l.map (fun p => (p.1, p.2.slot, p.2.xbase, p.2.vbase, p.2.wheel)) }
          ({ s1 with kernels := s1.kernels.put k r1 }.modQueue r.queue (fun q => { q with begun := true })).sched_ td rankLast
            (.threadCreation k)

/-- DISPATCH (R333). -/
def execDispatch (k : Nat) (s : State) : Host.Outcome State Fault Refusal := .next (s.dispatchNow k)

/-- Thread i of a launch (R45). -/
def launchThread (key : Nat) (k : Kernel) (i : Nat) (p : Nat × Nat × Nat × Nat × W64) (now : Nat) : Thread :=
  let b := newThread { core := p.1, slot := p.2.1 } k.asid key
  let u := { b with
    xbase := p.2.2.1, xsize := k.xsize, vbase := p.2.2.2.1, vsize := k.vsize, wheel := p.2.2.2.2, pc := k.entry,
    insn := k.entry, gapUntil := now + 1, cancel := k.cancel, cap := k.cap,
    csr := { b.csr with vtime := k.vtstart, detlvl := k.detlvl } }
  ((u.setX 4 k.args).setX 5 (BitVec.ofNat 64 i)).setX 6 (BitVec.ofNat 64 k.count)

/-- THREAD_CREATION: 64 threads per tick in index order; the packet completes with the last (R299, R334). -/
def execThreadCreation (k : Nat) (s : State) : Host.Outcome State Fault Refusal :=
  .next (match s.kernels.find? k with
    | none => s
    | some r =>
      if r.phase ≠ .dispatched then s
      else
        let batch := (r.placed.drop r.created).take 64
        let ths := (batch.zip (List.range batch.length)).map (fun p => launchThread k r (r.created + p.2) p.1 s.ticks)
        let n := r.created + batch.length
        let s1 := ths.foldl State.putThread { s with kernels := s.kernels.put k { r with created := n } }
        if n < r.count && !batch.isEmpty then s1.after_ 1 rankLast (.threadCreation k)
        else
          let s2 := if (s1.queue r.queue).begun && packetType (wordAt (s1.queue r.queue).words 0) = 1 then
              s1.completePacket r.queue else s1
          s2.tryRetire k)

/-! ### FENCE and SIGNAL (R331) -/

/-- FENCE: its conditions are read at once for the first time. -/
def execFencePacket (q : Nat) (s : State) : Host.Outcome State Fault Refusal :=
  .next (s.withPacket q 2 (fun c ws =>
    match s.fenceFault c ws with
    | some e => s.rejectPacket q e
    | none => s.fenceBegin q))

/-- FENCE_PACKET_PASS: the next condition of the pass is read at its channel, or a new pass begins. -/
def execFencePacketPass (q : Nat) (s : State) : Host.Outcome State Fault Refusal :=
  let r := s.queue q
  .next (match r.packet, s.ctx? r.ctx with
    | some ws, some c =>
      if packetType (wordAt ws 0) ≠ 2 then s
      else if c.phase ≠ .live then s.after_ 64 rankLand (.fencePacketPass q)
      else if r.cond < condCount ws then
        let a := (condAddr ws r.cond).toNat
        let s1 := if s.mem.poisoned (a / 8) then s.count r.ctx 8 1 else s
        s1.fenceGot q (some (s.mem.word a))
      else s.fenceBegin q
    | _, _ => s)

/-- Whether an earlier kernel of the queue has not retired. -/
def State.earlierKernels (s : State) (q : Nat) : Bool :=
  s.kernels.any (fun e => e.2.queue == q && e.1 < (s.queue q).mark && e.2.phase != .retired)

/-- SIGNAL: it waits until every earlier kernel of its queue has retired; its write follows after a free time. -/
def execSignal (q : Nat) (s : State) : Host.Outcome State Fault Refusal :=
  .next (s.withPacket q 3 (fun c ws =>
    match s.signalFault c ws with
    | some e => if (s.queue q).begun then s else s.rejectPacket q e
    | none =>
      let s1 := s.packetWaits q
      let under := s.sched.timers.any (fun t => t.2.2 == .signalWrite q) || s.sched.agenda.contains (.signalWrite q)
      if s.earlierKernels q || (s.queue q).begun || under then s1
      else (s1.modQueue q (fun x => { x with acc := some s.ticks })).later 0 rankLand (.signalWrite q)))

/-- SIGNAL_WRITE: the counter is written, added to or filled; the interrupt follows. -/
def execSignalWrite (q : Nat) (s : State) : Host.Outcome State Fault Refusal :=
  .next (s.withPacket q 3 (fun _ _ => if (s.queue q).begun then s else s.signalGo q))

/-! ### PIN and UNPIN (R300, R317, R325, R477) -/

def pageVa (ws : List W64) : Nat := fld (wordAt ws 1) 0 52
def pageCount (ws : List W64) : Nat := fld (wordAt ws 3) 0 16
def pageBig (ws : List W64) : Bool := bit (wordAt ws 3) 16
def pinFrame (ws : List W64) : Nat := fld (wordAt ws 2) 0 39

/-- The limits of the page fields that PIN and UNPIN share. -/
def pagesRange (ws : List W64) : Bool :=
  pageVa ws % pageBytes (pageBig ws) ≠ 0 || pageCount ws = 0 || 2 ^ 52 < pageVa ws + pageCount ws * pageBytes (pageBig ws)

/-- The tables after a PIN; none when it is rejected with XLATE. -/
def pinAll (m : Memory) (c : Ctx) (ws : List W64) : Option Memory :=
  (List.range (pageCount ws)).foldl (fun (o : Option Memory) i =>
    o.bind (fun m => pinPage m c (pageVa ws + i * pageBytes (pageBig ws)) (pinFrame ws + i * pageBytes (pageBig ws)) (pageBig ws)
      (at_ (fld (wordAt ws 3) 17 3) 2))) (some m)

/-- PIN: leaves for consecutive pages; a frame in quarantine holds it back (R325). -/
def execPin (q : Nat) (s : State) : Host.Outcome State Fault Refusal :=
  .next (s.withPacket q 4 (fun c ws =>
    let n := pageCount ws * pageBytes (pageBig ws)
    if layoutBad ws || (bit (wordAt ws 3) 19 && !bit c.features 8) then s.rejectPacket q codeFormat
    else if pagesRange ws || pinFrame ws % pageBytes (pageBig ws) ≠ 0 then s.rejectPacket q codeRange
    else match s.partOf c.vf with
      | none => s.rejectPacket q codeXlate
      | some r =>
        if !partHasDram r (pinFrame ws) n then s.rejectPacket q codeXlate
        else match pinAll s.mem c ws with
          | none => s.rejectPacket q codeXlate
          | some m =>
            let held := s.quarantine.map (fun f => (f.1, f.2.1)) ++
              s.queues.flatMap (fun (e : Nat × QueueRec) => e.2.unpins.map (fun p => (leafFrame p.2.1, pageBytes p.2.2)))
            if held.any (fun f => pinFrame ws < f.1 + f.2 && f.1 < pinFrame ws + n) then s.packetWaits q
            else (s.setMem m).completePacket q))

/-- The leaf of one page of a queue's UNPIN is marked invalid; its frame waits for the quarantine (R325). -/
def State.markPage (s : State) (q : Nat) (c : Ctx) (big : Bool) (va : Nat) : State :=
  match leafOf s.mem c va big with
  | none => s
  | some (a, e) =>
    (s.setMem (s.mem.setWord a (e &&& ~~~1))).modQueue q (fun r => { r with unpins := r.unpins ++ [(va, e, big)] })

/-- UNPIN: every leaf is marked, and the UNPIN completes, with its frames in the quarantine under that tick, once the queue
has room for them; of more than 4,096 pages, in runs of 4,096 (R300, R325, log 67). -/
def execUnpin (q : Nat) (s : State) : Host.Outcome State Fault Refusal :=
  .next (s.withPacket q 5 (fun c ws =>
    let r := s.queue q
    let va := pageVa ws
    let big := pageBig ws
    let n := pageCount ws
    let pages := (List.range n).map (fun i => va + i * pageBytes big)
    if layoutBad ws then s.rejectPacket q codeFormat
    else if pagesRange ws then s.rejectPacket q codeRange
    else if !r.begun && pages.any (fun v => (leafOf s.mem c v big).isNone) then s.rejectPacket q codeXlate
    else
      let run := (pages.drop r.cond).take 4096
      let s1 := if r.unpins.isEmpty then run.foldl (fun (st : State) (v : Nat) => st.markPage q c big v) s else s
      if 4096 < s1.quarantine.length + (s1.queue q).unpins.length then
        s1.modQueue q (fun x => { x with begun := true, state := 2 })
      else
        let s2 := s1.quarantineMarked q
        if r.cond + run.length < n then
          (s2.modQueue q (fun x => { x with begun := true, state := 2, cond := x.cond + run.length })).sched_ s.ticks rankLast
            (.unpin q)
        else (s2.setMem (pages.foldl (fun (m : Memory) (v : Nat) => returnTables m c v) s2.mem)).completePacket q))

/-! ### VIEWDEF, CODELOAD, DETLVL, SLOTPLAN (R307, R311, R332, R404) -/

/-- The conditions of R311 on a region record. -/
def viewOk (c : Ctx) (v : ViewRec) : Bool :=
  v.rows % v.tr = 0 && v.cols % v.tc = 0 && (v.w = 0 || (v.w ≤ 8 * v.e && v.rows % 64 = 0)) &&
    c.segAllows (v.base * 4096) v.bytes false false

/-- VIEWDEF: registers, or with VALID = 0 removes, a region (R311). -/
def execViewdef (q : Nat) (s : State) : Host.Outcome State Fault Refusal :=
  .next (s.withPacket q 6 (fun c ws =>
    let w0 := wordAt ws 1
    let w1 := wordAt ws 2
    let n := fld (wordAt ws 3) 0 12
    let valid := bit w0 0
    if layoutBad ws || !bit c.features 9 || fld w0 8 3 = 7 || fld w0 11 3 = 7 || (!valid && (w0 ≠ 0 || w1 ≠ 0)) then
      s.rejectPacket q codeFormat
    else if 16 < fld w0 3 5 then s.rejectPacket q codeRange
    else if valid && !viewOk c (viewRec (w0, w1)) then s.rejectPacket q codeView
    else (s.modCtx c.asid (fun c => { c with views := if valid then c.views.put n (w0, w1) else c.views.erase n })).completePacket q))

/-- Whether another context of the partition has code in a range (R307, R328). -/
def State.codeTaken (s : State) (c : Ctx) (dst len : Nat) : Bool :=
  s.ctxs.any (fun e => e.1 != c.asid && e.2.phase != .ended && e.2.phase != .destroying &&
    (s.host.vfs.getD e.2.vf VfRec.reset).bound == (s.host.vfs.getD c.vf VfRec.reset).bound &&
    e.2.code.any (fun r => r.1 < dst + len && dst < r.1 + r.2))

/-- Code is written into the code store of every cluster that holds the context (R307). -/
def State.loadCode (s : State) (c : Ctx) (dst : Nat) (b : List Byte) : State :=
  let m := c.clusters.foldl (fun (m : Memory) (n : Nat) => m.writeN (codeKey n dst) b) s.mem
  let m1 := { m with badCode := m.badCode.filter (fun k =>
    !c.clusters.any (fun n => codeKey n dst ≤ k && k < codeKey n dst + b.length)) }
  (s.setMem m1).modCtx c.asid (fun c => { c with
    code := c.code ++ [(dst, b.length)],
    image := (b.zip (List.range b.length)).foldl (fun (t : Tab Byte) p => t.put (dst + p.2) p.1) c.image })

/-- CODELOAD (R300, R307). Of several codes that apply to a packet the lowest is given (R328; log 63). -/
def execCodeload (q : Nat) (s : State) : Host.Outcome State Fault Refusal :=
  .next (s.withPacket q 7 (fun c ws =>
    let src := (wordAt ws 1).toNat
    let dst := fld (wordAt ws 2) 2 16 * 4
    let len := fld (wordAt ws 2) 18 19
    if layoutBad ws then s.rejectPacket q codeFormat
    else if 2 ^ 39 ≤ src || src % 8 ≠ 0 || len % 4 ≠ 0 || len < 4 || 0x40000 < len || !c.segAllows src len true false then
      s.rejectPacket q codeRange
    else if 0x40000 < dst + len || s.codeTaken c dst len then s.rejectPacket q codeCode
    else (s.loadCode c dst (s.dramBytes src len)).completePacket q))

/-- DETLVL: it waits until every kernel of the context accepted before its parsing has retired (R332, R461). -/
def execDetlvl (q : Nat) (s : State) : Host.Outcome State Fault Refusal :=
  .next (s.withPacket q 8 (fun c ws =>
    let l := fld (wordAt ws 1) 0 2
    if layoutBad ws || l = 3 || (l = 1 && !bit c.features 6) || (l = 2 && !bit c.features 7) then s.rejectPacket q codeFormat
    else if s.kernels.any (fun e => e.2.asid == c.asid && e.1 < (s.queue q).mark && e.2.phase != .retired) then s.packetWaits q
    else (s.modCtx c.asid (fun c => { c with level := BitVec.ofNat 2 l })).completePacket q))

/-- SLOTPLAN: it waits until no live kernel uses the slot (R332, R404). -/
def execSlotplan (q : Nat) (s : State) : Host.Outcome State Fault Refusal :=
  .next (s.withPacket q 9 (fun c ws =>
    let src := (wordAt ws 1).toNat
    let n := fld (wordAt ws 2) 0 4
    let len := fld (wordAt ws 2) 8 16
    let es := wordsOf (8 * len) (s.dramBytes src (64 * len))
    if layoutBad ws || !bit c.features 7 then s.rejectPacket q codeFormat
    else if 2 ^ 39 ≤ src || src % 64 ≠ 0 then s.rejectPacket q codeRange
    else match planFault es with
      | some e => s.rejectPacket q e
      | none =>
        if s.kernels.any (fun e => e.2.detlvl == 2 && e.2.planen && e.2.plan == n && e.2.phase == .dispatched) then s.packetWaits q
        else { s with qp := { s.qp with plans := s.qp.plans.put n es } }.completePacket q))

/-! ### Queue registers (R326, R328, R337, R457, R474) -/

/-- The function whose partition names a queue in its QMASK; the VFs are exposed once the firmware runs (R460, R463, R466). -/
def State.queueVf (s : State) (q : Nat) : Option Nat :=
  if s.host.boot ≠ 3 || !s.host.running then none else s.queueOwner q

/-- A queue whose registers appear on a function is written, else the write is ignored (R460). -/
def State.writeQueue (s : State) (q : Nat) (f : QueueRec → QueueRec) : State :=
  if (s.queueVf q).isSome then s.modQueue q f else s

/-- STATE after a change of the registers: a packet in work keeps its state, a halted queue stays halted. -/
def QueueRec.settled (r : QueueRec) : QueueRec := if r.state = 3 || r.packet.isSome then r else { r with state := r.restState }

/-- QTAIL_WRITE (R326, R457). -/
def execQtailWrite (q : Nat) (val : W64) (s : State) : Host.Outcome State Fault Refusal :=
  .next (s.writeQueue q (fun r => { r with tail := fld val 0 16 }.settled))

/-- The fields of QCTL beside EN, RESUME and SKIP: CTX is ignored while EN = 1 (R326). -/
def QueueRec.setFields (r : QueueRec) (val : W64) : QueueRec :=
  { r with ctx := if r.en then r.ctx else fld val 16 16, loc := bit val 1, prio := fld val 2 2 }

/-- A write of QCTL with EN = 1; after a TRIP no queue runs any more (R472). -/
def State.enableQueue (s : State) (q : Nat) (val : W64) : State :=
  if s.host.trip then s else
  let s1 := s.writeQueue q (fun r => { r.setFields val with en := true }.settled)
  match s.queueVf q with
  | none => s1
  | some n => { s1 with host := { s1.host with vfs := s1.host.vfs.modify n (fun v => { v with used := true }) } }

/-- QCTL_ENABLE: the queue runs (R326). -/
def execQctlEnable (q : Nat) (val : W64) (s : State) : Host.Outcome State Fault Refusal := .next (s.enableQueue q val)

/-- Withdraws the head packet of a queue whose effect has not begun (R474). -/
def State.withdrawPacket (s : State) (q : Nat) : State :=
  let r := s.queue q
  if r.packet.isNone || r.begun then s
  else
    let s1 := (s.cancelTimer (.fencePacketPass q)).cancelTimer (.signalWrite q)
    ({ s1 with kernels := s1.kernels.filter (fun (e : Nat × Kernel) => !(e.2.queue == q && e.2.phase == KPhase.waiting)) }.modQueue q (fun x =>
      { x with packet := none, req := none, acc := none })).retryQueues

/-- A write of QCTL with EN = 0: a waiting head packet ends its wait; one whose effect has begun runs to completion. -/
def State.disableQueue (s : State) (q : Nat) : State :=
  if (s.queueVf q).isNone then s else (s.withdrawPacket q).modQueue q (fun r => { r with en := false }.settled)

/-- QCTL_DISABLE (R474). -/
def execQctlDisable (q : Nat) (s : State) : Host.Outcome State Fault Refusal := .next (s.disableQueue q)

/-- A written RESUME: a halted queue parses its halted packet again, or with SKIP goes past it (R326, R328). -/
def State.resumeQueue (s : State) (q : Nat) (skip : Bool) : State :=
  s.writeQueue q (fun r =>
    if r.state = 3 then
      let r1 := { r with head := if skip then (r.head + r.slots) % 2 ^ r.log else r.head, code := 0 }
      { r1 with state := r1.restState }
    else r)

/-- QCTL_RESUME (R328). -/
def execQctlResume (q : Nat) (s : State) : Host.Outcome State Fault Refusal := .next (s.resumeQueue q false)

/-- QCTL_RESUME_SKIP: the halted packet is discarded (R326). -/
def execQctlResumeSkip (q : Nat) (s : State) : Host.Outcome State Fault Refusal := .next (s.resumeQueue q true)

/-- A thread of a cancelled kernel: its wait is withdrawn when it is in no region, and it ends at its next boundary (R337). -/
def State.cancelThread (s : State) (t : Tid) : State :=
  let s1 := s.modThread t (fun u => { u with cancel := true })
  match s1.thread? t with
  | none => s1
  | some th => if th.depth = 0 then (s1.withdrawWait th).getD (s1.askBack th) else s1

/-- While the kernel's context is saved, the cancel sets CANC in its save area (R356). -/
def State.markSaved (s : State) (key : Nat) (k : Kernel) : State :=
  match s.ctx? k.asid with
  | some c =>
    if c.phase = .saved then
      let a := c.save + 64 + 16 * (((s.kernelTable k.asid).map (·.1)).idxOf key)
      s.setMem (s.mem.setWord a (s.mem.word a ||| at_ 1 45))
    else s
  | none => s

/-- Cancels one kernel (R337). -/
def State.cancelKernel (s : State) (key : Nat) (k : Kernel) : State :=
  match k.phase with
  | .waiting =>
    let s1 := s.errorRecord k.queue (queueRec s.ticks s.ni.peer 2 codeCancelled k.asid k.tag k.lid 0)
    ({ s1 with kernels := s1.kernels.erase key }.completePacket k.queue).retryQueues
  | .dispatched =>
    let s1 := (s.markSaved key k) |> fun (st : State) => { st with
      kernels := st.kernels.put key { k with cancel := true },
      ni := { st.ni with transits := st.ni.transits.map (fun (x : Transit) =>
        if x.ctx.home.1 = s.ni.peer && x.ctx.kernel = key then { x with ctx := { x.ctx with cancel := true } } else x) } }
    ((s1.threadsWhere (fun t => t.kernel == key)).map (fun (t : Thread) => t.id)).foldl State.cancelThread s1
  | .retired => s

/-- The dispatches that fall in this tick and have still to come. -/
def State.dispatchesDue (s : State) : List Nat :=
  s.sched.agenda.filterMap (fun e => match e with | .dispatch k => some k | _ => none)

/-- The dispatches of this tick take place at once, in their order. -/
def State.dispatchDue (s : State) : State :=
  (s.dispatchesDue.foldl (fun (st : State) (k : Nat) => st.cancelTimer (.dispatch k)) s) |> fun st =>
    s.dispatchesDue.foldl State.dispatchNow st

/-- The packet start of this tick that has parsed a LAUNCH of a queue is followed at once by its acceptance (R337). -/
def State.launchDue (s : State) (q : Nat) : State :=
  if s.sched.agenda.contains (.launch q) then (s.cancelTimer (.launch q)).launchNow q else s

/-- QCANCEL (R326, R337): a LAUNCH parsed in this tick is accepted, and the dispatches of the tick come first (R338). -/
def execQcancel (q : Nat) (val : W64) (s : State) : Host.Outcome State Fault Refusal :=
  .next (if (s.queueVf q).isNone then s
    else
      let s1 := (s.launchDue q).dispatchDue.modQueue q (fun r => { r with cancel := BitVec.ofNat 32 val.toNat })
      (s1.kernels.filter (fun e => e.2.queue == q && e.2.lid == fld val 0 32)).foldl
        (fun (st : State) (e : Nat × Kernel) => st.cancelKernel e.1 e.2) s1)

/-- What QSTAT reads (R326). -/
def QueueRec.qstat (r : QueueRec) : W64 :=
  r.state.zeroExtend 64 ||| at_ r.code.toNat 8 ||| at_ r.errs.toNat 32

/-- QSTAT_READ: ERRS is returned and cleared. -/
def execQstatRead (q : Nat) (s : State) : Host.Outcome State Fault Refusal :=
  let seen := (s.queueVf q).isSome
  let v := if seen then (s.queue q).qstat else 0
  .next (({ s with host := { s.host with reads := s.host.reads ++ [(leBytes 8 v.toNat, false)] } }).writeQueue q
    (fun r => { r with errs := 0 }))

end Sys2Proof.Machine
end

