-- ==== Sys2Proof/Machine/System.lean ====
section
/-! DEFINITION. Meanings of CSRR and CSRW: the control-register map (spec 01 R19 to R32; 08 R221). -/

namespace Sys2Proof.Machine

/-- WIN (R24). -/
def Thread.win (th : Thread) : W64 := at_ th.xbase 0 ||| at_ th.xsize 11 ||| at_ th.vbase 19 ||| at_ th.vsize 27

/-- BSTAT at a tick (R26). -/
def Thread.bstat (th : Thread) (now : Nat) : W64 :=
  match th.regions with
  | [] => 0
  | r :: _ => at_ th.depth 0 ||| atB r.hnd 3 ||| atB r.hold 4 ||| at_ (th.left now) 32

/-- The value of a control register at issue, or none when its number is unlisted (R19, R20). -/
def State.readCsr (s : State) (th : Thread) (n : Nat) : Option W64 :=
  match n with
  | 0x000 => some th.csr.fcsr
  | 0x001 => some (at_ s.ticks 0)
  | 0x002 => some th.csr.vtime
  | 0x003 => some (s.ctxOf th).seenLwm
  | 0x004 => some (at_ s.swm 0)
  | 0x008 => some (threadReg s.ni.peer th.id)
  | 0x009 => some th.win
  | 0x00A => some th.wheel
  | 0x010 => some th.csr.tvec
  | 0x011 => some th.csr.tepc
  | 0x012 => some th.csr.tcause
  | 0x013 => some th.csr.tval
  | 0x014 => some th.csr.tsave
  | 0x018 => some (th.bstat s.ticks)
  | 0x020 => some (atB th.csr.chk 0)
  | 0x021 => some (th.csr.feretry.zeroExtend 64)
  | 0x030 => some (th.csr.detlvl.zeroExtend 64)
  | 0x040 => some (at_ s.ni.peer 0)
  | _ => none

/-- The control registers after a write of a control register, or the trap it takes (R20 to R31): reserved bits stay
zero. -/
def Csrs.write (c : Csrs) (n : Nat) (v : W64) : Except (Cause × W64) Csrs :=
  match n with
  | 0x000 => if 4 < fld v 0 3 then .error (.illegal, at_ n 0) else .ok { c with fcsr := v &&& 0x3FFFF }
  | 0x002 => if v.toNat < c.vtime.toNat then .error (.illegal, v) else .ok { c with vtime := v }
  | 0x010 => .ok { c with tvec := v &&& 0x3FFFD }
  | 0x011 => .ok { c with tepc := v &&& 0x3FFFC }
  | 0x012 => .ok { c with tcause := v &&& 0x1FF }
  | 0x013 => .ok { c with tval := v }
  | 0x014 => .ok { c with tsave := v }
  | 0x020 => .ok { c with chk := bit v 0 }
  | 0x021 => .ok { c with feretry := if fld v 0 32 = 0 then 1 else BitVec.ofNat 32 v.toNat }
  | _ => .error (.illegal, at_ n 0)

/-- CSRR (R221). DESIGN CHOICE (log 111): ILLEGAL for an unlisted number is taken as the instruction's own trap, after step 3 of
R97. -/
def execCsrr (st : Stall) (d : XReg) (n : BitVec 10) (s : State) : Host.Outcome State Fault Refusal :=
  issue s st none (.d d latAlu) (fun s1 th =>
    match s1.readCsr th n.toNat with
    | some v => .ok (s1.writeReg th.id latAlu (.x d v))
    | none => .trap .illegal (at_ n.toNat 0))

/-- CSRW: the old value goes to xd (R221). -/
def execCsrw (st : Stall) (d a : XReg) (n : BitVec 10) (s : State) : Host.Outcome State Fault Refusal :=
  issue s st none (.da d a latAlu) (fun s1 th =>
    match s1.readCsr th n.toNat with
    | none => .trap .illegal (at_ n.toNat 0)
    | some old =>
      match th.csr.write n.toNat (th.getX a) with
      | .error (c, v) => .trap c v
      | .ok c => .ok ((s1.modThread th.id (fun u => { u with csr := c })).writeReg th.id latAlu (.x d old)))

end Sys2Proof.Machine
end

