-- ==== Sys2Proof/Machine/Save.lean ====
section
/-! DEFINITION. The save area of a context, byte by byte (spec 16 R356 to R359). -/

namespace Sys2Proof.Machine

/-- Bytes padded with zeros to a multiple of 64. -/
def pad64 (b : List Byte) : List Byte := b ++ List.replicate ((64 - b.length % 64) % 64) 0

/-- Bytes padded with zeros to a length. -/
def padTo (n : Nat) (b : List Byte) : List Byte := b ++ List.replicate (n - b.length) 0

/-- Bits as bytes, the lowest bit first. -/
def bitBytes (n : Nat) (f : Nat → Bool) : List Byte :=
  (List.range (n / 8)).map (fun i => (List.range 8).foldl (fun (b : Byte) j => setBit b j (f (8 * i + j))) 0)

/-- A kernel-table entry. -/
def State.kernelWords (s : State) (e : Nat × Kernel) : List W64 :=
  let k := e.2
  [ at_ k.lid 0 ||| at_ k.queue 32 ||| at_ k.detlvl.toNat 38 ||| at_ k.plan 40 ||| atB k.planen 44 ||| atB k.cancel 45,
    at_ k.cap 0 ||| at_ (s.threadsWhere (fun t => t.kernel == e.1)).length 32 ]

/-- The code image: a word for each range, then their bytes. -/
def codeImage (c : Ctx) : List Byte :=
  wordBytes (c.code.map (fun r => at_ (r.1 / 4) 2 ||| at_ r.2 18)) ++
    c.code.flatMap (fun r => (List.range r.2).map (fun i => c.image.getD (r.1 + i) 0))

def gangSizeCode : GangSize → Nat
  | .g2 => 1 | .g4 => 2 | .g8 => 3 | .g16 => 4

/-- GSTATE and GSIZE of a thread. -/
def State.gangWord (s : State) (th : Thread) : W64 :=
  match th.gang with
  | .none => 0
  | .leader z _ => at_ 3 30 ||| at_ (gangSizeCode z) 32
  | .follower l _ _ =>
    match s.thread? l with
    | some u => match u.gang with
      | .leader z _ => at_ 2 30 ||| at_ (gangSizeCode z) 32
      | _ => at_ 2 30
    | none => at_ 2 30

/-- A thread record (R357). -/
def State.threadRecord (s : State) (th : Thread) : List Byte :=
  let k := ((s.kernelTable th.asid).map (·.1)).idxOf th.kernel
  let c := th.csr
  let hdr : List W64 :=
    [ threadReg s.ni.peer th.id ||| s.gangWord th, at_ (firstUnissued s th) 0, th.win, th.wheel, c.vtime, c.fcsr, c.tvec, c.tepc,
      c.tcause, c.tval, c.tsave, atB c.chk 0 ||| at_ c.feretry.toNat 32, at_ c.detlvl.toNat 0 ||| at_ k 8,
      atB (!th.lost.isEmpty) 0, (th.lost.head?.map (·.2.2)).getD 0 ]
  padTo 256 (wordBytes hdr) ++ wordBytes ((List.range th.xsize).map (fun i => th.getX (BitVec.ofNat 7 i))) ++
    (List.range th.vsize).flatMap (fun i => leBytes 64 (th.getV (BitVec.ofNat 5 i)).toNat) ++
    wordBytes ((List.range 8).map (fun i => th.getM (BitVec.ofNat 3 i))) ++
    wordBytes ((List.range 8).map (fun i => th.getF (BitVec.ofNat 3 i)))

/-- A core record (R358). -/
def State.coreRecord (s : State) (core : Nat) : List Byte :=
  let r := s.core core
  let cell := localKey core 0 / 8
  padTo 64 (wordBytes [at_ core 0 ||| at_ (r.exch / 4096) 16 ||| atB r.bank 24]) ++
    wordBytes ((List.range 16).flatMap (fun i =>
      let m := r.maps.getD i ChunkMap.zero
      [at_ m.base.toNat 0, m.landed, m.poisoned])) ++
    (List.range 256).flatMap (fun i => leBytes 4 (r.mail.getD i 0).toNat) ++
    padTo 512 (r.members.flatMap (fun m =>
      leBytes 4 (1 + (if m.pending then 2 else 0) + m.group * 4 + m.slot * 2 ^ 14))) ++
    bitBytes 24576 (fun n => s.mem.isFull (cell + n)) ++ bitBytes 24576 (fun n => s.mem.poisoned (cell + n)) ++
    s.mem.readN (localKey core 0) Config.localBytes

def mxFnCode : MxFn → Nat
  | .mac => 0 | .mul => 1 | .drain => 2 | .zero => 3 | .acld => 4 | .acst => 5 | .cfg => 6 | .scl => 7

def mxPathCode : Option MxPath → Nat
  | some .int => 0 | some .window => 1 | some .block => 2 | some .tree => 3 | none => 0

/-- The window of an entry, by path. -/
def windowBytes (p : Option MxPath) (w : Partial) : List Byte :=
  match p with
  | some .window => leBytes 16 (BitVec.ofInt 112 w.sum).toNat
  | some .int => leBytes 16 (BitVec.ofInt 64 w.sum).toNat
  | _ => List.replicate 16 0

/-- An in-flight record (R359). -/
def inFlightRecord (f : InFlight) : List Byte :=
  let a := f.arrs.headD (arrivalOf .zero 0 0 0)
  let p : Option MxPath := match a.fn with | .mac | .mul => mxPath a.fmtA a.fmtB | _ => none
  let body := match a.fn with
    | .drain => f.arrs.flatMap (fun x => padTo 64 (wordBytes (x.blk.take 5)))
    | _ => (List.range 4096).flatMap (fun o => windowBytes p (f.open_.getD o { sum := 0, posInf := false, negInf := false, nan := false, inval := false }))
  padTo 64 (wordBytes [at_ (mxFnCode a.fn) 0 ||| at_ 1 3 ||| at_ (mxPathCode p) 4 ||| at_ f.kdone 6 |||
      at_ f.flags.toNat 16 ||| atB f.poison 21, f.cfg]) ++
    wordBytes (f.arrs.flatMap (fun x => [x.xa, x.xb, x.xc])) ++ wordBytes (f.arrs.flatMap (fun x => [x.fmtA, x.fmtB])) ++
    padTo 65536 body

/-- A core's section of the scale directory. -/
def tileDirectory (ts : List Tile) : List Byte :=
  padTo 64 (wordBytes (ts.map (fun t =>
    at_ t.seq.toNat 0 ||| atB t.half 32 ||| at_ 1 33 ||| at_ t.off 34 ||| at_ t.bytes.length 44)))

/-- A core's section of the scale buffer. -/
def tileSection (ts : List Tile) : List Byte :=
  (List.range 1024).map (fun o =>
    match ts.find? (fun t => t.off ≤ o && o < t.off + t.bytes.length) with
    | some t => t.bytes.getD (o - t.off) 0
    | none => 0)

/-- A row record (R359). -/
def State.rowRecord (s : State) (row : Nat) : List Byte :=
  let r := s.row row
  let types := (List.range 8).foldl (fun n i => n + (r.types.getD i 0).toNat * 4 ^ i) 0
  let col := fun (c : Nat) => r.tiles.filter (fun t => t.col == c)
  padTo 64 (wordBytes [at_ row 0, r.cfg, at_ types 0, at_ r.queue.length 0]) ++
    wordBytes ((List.range 4).flatMap (fun c =>
      let d := (s.core (4 * row + c)).decl
      [at_ d.mode.toNat 0 ||| at_ d.shift 2, d.xb])) ++
    (List.range 4).flatMap (fun c => tileDirectory (col c)) ++ (List.range 4).flatMap (fun c => tileSection (col c)) ++
    wordBytes ((List.range 32768).map (fun k => r.acc.getD k 0)) ++
    padTo (4 * 65760) (r.queue.flatMap inFlightRecord)

/-- The parts of a save area after its header, in order. -/
def State.saveParts (s : State) (c : Ctx) : List (List Byte) :=
  let rows := c.rows.mergeSort
  [ pad64 ((s.kernelTable c.asid).flatMap (fun e => wordBytes (s.kernelWords e))),
    pad64 (codeImage c),
    (s.threadsOf c.asid).flatMap s.threadRecord,
    (rows.flatMap (fun r => [4 * r, 4 * r + 1, 4 * r + 2, 4 * r + 3])).flatMap s.coreRecord,
    rows.flatMap s.rowRecord ]

/-- Offsets of parts that follow one another. -/
def partOffsets : Nat → List (List Byte) → List Nat
  | _, [] => []
  | o, p :: r => o :: partOffsets (o + p.length) r

/-- The save area of a context at the tick at which the save completes (R356). -/
def State.saveImage (s : State) (c : Ctx) : List Byte :=
  let parts := s.saveParts c
  wordBytes ([at_ c.asid 0 ||| at_ (s.kernelTable c.asid).length 16 ||| at_ (s.threadsOf c.asid).length 32, at_ s.ticks 0,
    at_ (4 * c.rows.length) 0 ||| at_ c.code.length 16] ++ (partOffsets 64 parts).map (fun o => at_ o 0)) ++
    parts.flatMap id

/-- Bytes of the save area on this package, S (R355). -/
def State.saveSize (s : State) (c : Ctx) : Nat := 64 + ((s.saveParts c).map List.length).sum

/-- The worst case of a save or of a restore (R355). -/
def State.saveTicks (s : State) (c : Ctx) : Nat := 4096 + (s.saveSize c + 8191) / 8192

end Sys2Proof.Machine
end

