-- ==== Sys2Proof/Machine/Contexts.lean ====
section
/-! DEFINITION. Meanings of the events that end, pre-empt, save and restore a context (spec 15 R335, R336; 16 R351 to R360). -/

namespace Sys2Proof.Machine

/-! ### Rows become free (R12, R333, R336, R470) -/

/-- A saved context whose rows are all free is restored, the highest priority first (R336). -/
def State.tryRestores (s : State) : State :=
  let l := (s.ctxs.filter (fun e => e.2.phase == .saved && e.2.rows.all s.rowFree)).foldl
    (fun (l : List Nat) e => s.insertVictim e.1 l) []
  l.reverse.foldl (fun (st : State) (a : Nat) => st.sched_ st.ticks rankEngine (.restore a)) s

/-- Rows that a context gives up: a MAPOUT that waited takes effect (R470); saved contexts, then launches, are tried. -/
def State.rowsFreed (s : State) (rows : List Nat) : State :=
  let s1 := rows.foldl (fun (st : State) (r : Nat) =>
    let w := st.row r
    let st1 := (st.putRow r { RowRec.fresh with mappedOut := w.mappedOut || w.mapoutReq })
    let st2 := { st1 with cores := st1.cores.filter (fun e => e.1 / 4 != r) }
    if w.mapoutReq then { st2 with host := { st2.host with partstat := 2 } }.interrupt 0 0 else st2) s
  s1.tryRestores.retryDispatch

/-! ### The end of a context (R351 to R353, R387) -/

/-- The thread that a timed event concerns. -/
def eventTid : Instr → Option Tid
  | .registerWriteLanding t | .divideComplete t | .fpDivSqrtComplete t | .fpexcParkEnd t | .loadResponse ⟨t, _⟩
  | .storePerformed ⟨t, _⟩ _ | .feRetry t | .heldStoreRelease t _ | .tcloseCloseInstant t | .overrun t | .handlerOverrun t
  | .storeLost t | .migrationAnswer t _ _ | .spawnPlacement t | .detAtomicAccept t | .scFenceComplete t => some t
  | _ => none

/-- The row that a timed event concerns. -/
def eventRow : Instr → Option Nat
  | .matrixStart r | .matrixComplete r | .kBlockBoundary r => some r
  | _ => none

/-- A thread's name, or, when the thread is gone, a name that no thread has. -/
def deadTid (gone : List Tid) (t : Tid) : Tid := if gone.contains t then { t with slot := 64 } else t

/-- An operation of a thread that is gone: its packet still counts at its port. -/
def deadOp (gone : List Tid) : PortOp → PortOp
  | .loadOf t due => .loadOf (deadTid gone t) due
  | .storeOf t id due => .storeOf (deadTid gone t) id due
  | .data a => .data { a with tid := deadTid gone a.tid }
  | .ack a id => .ack { a with tid := deadTid gone a.tid } id
  | .refused t => .refused (deadTid gone t)
  | .child t => .child (deadTid gone t)
  | op => op

/-- What a packet under way does at its target when its thread is gone: it arrives, and nothing follows. -/
def deadArrival (gone : List Tid) : Instr → Instr
  | .crossbarPacketArrival src port seq op => .crossbarPacketArrival src port seq (deadOp gone op)
  | e => e

/-- An event of a thread or a row that is gone does not happen; its packets still count at their ports. -/
def liveEvent (gone : List Tid) (rows : List Nat) (e : Instr) : Option Instr :=
  match e with
  | .crossbarPacketArrival src port seq op => some (.crossbarPacketArrival src port seq (deadOp gone op))
  | e =>
    if (eventTid e).any (fun t => gone.contains t) || (eventRow e).any (fun r => rows.contains r) then none else some e

/-- Threads and rows vanish from the schedule and from the ports. -/
def State.forget (s : State) (gone : List Tid) (rows : List Nat) : State :=
  { s with
    sched := { s.sched with
      timers := s.sched.timers.filterMap (fun e => (liveEvent gone rows e.2.2).map (fun i => (e.1, e.2.1, i))),
      agenda := s.sched.agenda.filterMap (liveEvent gone rows) },
    xbar := { s.xbar with early := s.xbar.early.map (fun e => (e.1, e.2.1, deadOp gone e.2.2)),
                          pkts := s.xbar.pkts.map (fun p => { p with event := deadArrival gone p.event }) } }

/-- Global stores, and global lanes of vector stores, of a context's threads that are never performed: they stand in the store
buffers without a request, or their request has not left the NI (R362). -/
def State.unsentGlobals (s : State) (asid : Nat) : Nat :=
  ((s.threadsOf asid).flatMap (fun th => (th.sbuf ++ (match th.run with | .parked (.storeFull e) => [e] | _ => [])).flatMap (fun e =>
    e.parts.filter (fun p => routeOf th.id.core p.locs == .global && p.sent.isNone)))).length +
  (s.ni.out.filter (fun o => o.req.asid == asid && o.store.isSome && !o.sent)).length

/-- Steps 1 to 3 and 5 of R351: the threads stop, their buffers, waits and engine work are discarded, receives and headers go
(R387), the kernels are live no more. A saved context holds no row. Global stores that were not sent are lost without a
report; those that were sent keep their requests until they are answered or lost (R362). -/
def State.stopContext (s : State) (asid : Nat) : State :=
  let gone := (s.threadsOf asid).map (·.id)
  let rows := match s.ctx? asid with | some c => if c.phase = .saved then [] else c.rows | none => []
  let s1 := (s.count asid 12 (s.unsentGlobals asid)).forget gone rows
  let s2 := { s1 with
    threads := s1.threads.filter (fun e => e.2.asid != asid),
    waits := s1.waits.filter (fun w => w.asid != asid),
    det := s1.det.filter (fun d => d.asid != asid),
    copies := s1.copies.filter (fun c => c.asid != asid),
    kernels := s1.kernels.map (fun (e : Nat × Kernel) => (e.1, if e.2.asid == asid then { e.2 with phase := .retired } else e.2)),
    ni := { s1.ni with
      out := s1.ni.out.filter (fun o => o.req.asid != asid || (o.store.isSome && o.sent)),
      atUnit := s1.ni.atUnit.filter (fun e => e.1.asid != asid),
      transits := s1.ni.transits.filter (fun x => x.ctx.asid != asid) } }
  s2.rxeEnd asid

/-- The queues bound to a context. -/
def State.queuesOf (s : State) (asid : Nat) : List Nat := (s.queues.filter (fun e => e.2.ctx == asid)).map (·.1)

/-- Step 4 of R351: a queue reads EN = 0 and STATE 00, HEAD stays at the first packet not parsed. -/
def State.stopQueue (s : State) (q : Nat) : State :=
  (((s.cancelTimer (.fencePacketPass q)).cancelTimer (.signalWrite q)).quarantineMarked q).modQueue q (fun r =>
    { r with en := false, state := 0, packet := none, begun := false, req := none, acc := none,
             head := if r.packet.isSome then (r.head + r.slots) % 2 ^ r.log else r.head })

/-- A fault's place in the order of its records: tick, then global thread name (R353). -/
def faultKey (f : FaultRec) : Nat := f.tick * 2 ^ 30 + (match f.tid with | some t => tkey t + 1 | none => 0)

def insertFault (f : FaultRec) : List FaultRec → List FaultRec
  | [] => [f]
  | x :: r => if faultKey f < faultKey x then f :: x :: r else x :: insertFault f r

/-- The faults recorded: in order; a notice only when the package has no fault of its own (R353). -/
def faultsRecorded (l : List FaultRec) : List FaultRec :=
  let own := l.filter (fun f => !f.notice)
  (if own.isEmpty then l.take 1 else own).foldl (fun a f => insertFault f a) []

/-- Writes the record of one fault: to the queue of its thread's kernel, else to the context's lowest queue (R352, R353). -/
def State.recordFault (s : State) (asid : Nat) (f : FaultRec) (first : Bool) : State :=
  let k : Option Kernel := match f.tid with
    | some _ => s.kernels.find? f.kernel
    | none => none
  let q : Option Nat := match k with
    | some r => some r.queue
    | none => (s.queuesOf asid).head?
  match q with
  | none => s
  | some n => s.errorRecord n
      { kind := if f.notice then 4 else 3, code := f.cause.code, first := first && !f.notice,
        tag := (k.map (fun (r : Kernel) => r.tag)).getD 0, ticks := f.tick, thread := f.tid, asid := asid, origin := f.origin,
        epc := f.epc, lid := (k.map (fun (r : Kernel) => r.lid)).getD 0, val := f.val, tcause := f.tcause, head := 0 }

/-- The end of a context on this package (R351). -/
def State.endContext (s : State) (asid : Nat) : State :=
  match s.ctx? asid with
  | none => s
  | some c =>
    if c.phase = .ended || c.phase = .destroying || c.faults.isEmpty then s
    else
      let fs := faultsRecorded c.faults
      let s1 := ((fs.zip (List.range fs.length)).foldl (fun (st : State) (p : FaultRec × Nat) =>
        st.recordFault asid p.1 (p.2 == 0)) s).stopContext asid
      let s2 := (s1.queuesOf asid).foldl State.stopQueue s1
      let s3 := s2.modCtx asid (fun c => { c with phase := .ended, rows := [], clusters := [], groups := [], faults := [],
                                                  hadFault := true, saved := none,
                                                  stopTick := if (s.threadsOf asid).isEmpty then c.stopTick else s.ticks })
      let s4 := match fs with
        | f :: _ => if c.spans && !f.notice then
            s3.otherPeers.foldl (fun (st : State) (p : Nat) => st.tell p (.endNotice asid f.cause.code s.ni.peer f.val)) s3
          else s3
        | [] => s3
      (if c.phase = .saved then s4 else s4.rowsFreed c.rows).retryQueues

/-- CONTEXT_FATAL_END (R351, R353). -/
def execContextFatalEnd (asid : Nat) (s : State) : Host.Outcome State Fault Refusal := .next (s.endContext asid)

/-- The cause of a code (R346). -/
def causeOfCode (n : Nat) : Cause :=
  ([Cause.illegal, .feature, .window, .stallchk, .align, .protect, .noxlate, .fetimeout, .overrun, .nesting, .nopeer, .storelost,
    .scaleseq, .gangmismatch, .fpexc, .intdiv, .refused, .trapinsn, .handleroverrun, .cancelled, .poison].find?
      (fun c => c.code == n)).getD .protect

/-- CONTEXT_END_NOTICE: another package has ended the context (R351, R353). -/
def execContextEndNotice (asid cause origin : Nat) (val : W64) (s : State) : Host.Outcome State Fault Refusal :=
  let f : FaultRec := { tick := s.ticks, cause := causeOfCode cause, tid := none, kernel := 0, epc := 0, val := val, tcause := 0,
                        origin := origin, notice := true }
  .next ((s.modCtx asid (fun c => { c with faults := c.faults ++ [f] })).endContext asid)

/-! ### Pre-emption and the save (R335, R354 to R356) -/

/-- A thread of a context that is being pre-empted stops, when it stands at an instruction boundary with DEPTH = 0; its wait is
withdrawn when it can be (R354, steps 2 and 3). -/
def State.stopThread (s : State) (t : Tid) : State :=
  match s.thread? t with
  | none => s
  | some th =>
    let busy : Bool := match th.gang with | .follower _ _ (_ :: _) => true | _ => false
    if 0 < th.depth || busy then s
    else match th.run with
      | .stopped => s
      | .ready => s.modThread t (fun u => { u with run := .stopped, pairs := [] })
      | _ => match s.withdrawWait th with
        | some s1 => s1.modThread t (fun u => { u with run := .stopped })
        | none => s.askBack th

/-- The stores and other packets of a context that is being pre-empted travel in the bounded class from now on: its store
buffers drain within the figures of R343 (R355). -/
def State.hurry (s : State) (asid : Nat) : State :=
  let s1 := { s with threads := s.threads.map (fun e =>
    (e.1, if e.2.asid = asid then { e.2 with sbuf := e.2.sbuf.map (fun x => { x with bounded := true }) } else e.2)) }
  let cores := ((s.threadsOf asid).map (·.id.core)).eraseDups
  ((s.xbar.pkts.map (·.flow)).eraseDups.filter (fun f => cores.contains (f / 8192) || cores.contains (f % 8192))).foldl State.promote s1

/-- Whether every step before the save is done: threads stopped with every write landed (R102), stores performed, row arrays and engines at rest, every
dispatched kernel fully created (R354, steps 2 to 6). -/
def State.readyToSave (s : State) (c : Ctx) : Bool :=
  (s.threadsOf c.asid).all (fun th => th.run == .stopped && th.sbuf.isEmpty && th.pend.isEmpty) &&
    !s.copies.any (fun x => x.asid == c.asid) &&
    !s.rxe.landings.any (fun l => l.hdr.asid == c.asid && l.started) &&
    !s.ni.transits.any (fun x => x.ctx.asid == c.asid && x.ctx.home.1 == s.ni.peer) &&
    c.rows.all s.rowRests && !s.sched.timers.any (fun e => (eventRow e.2.2).any c.rows.contains) &&
    (s.kernelTable c.asid).all (fun e => e.2.created == e.2.count)

/-- Tstop (R355): the most that regions, messages carried through, matrix instructions, copies and divides still take. -/
def State.stopTime (s : State) (c : Ctx) : Nat :=
  ((s.liveKernels c.asid).map (fun (k : Kernel) => k.cap) ++
    (s.ni.sends.filter (fun (m : SendRec) => m.hdr.asid == c.asid)).map (fun (m : SendRec) => m.hdr.expires - s.ticks) ++
    c.rows.map (fun (r : Nat) => match (s.row r).queue with | f :: _ => if f.begun then f.worstTicks else 0 | [] => 0) ++
    (s.copies.filter (fun (r : CopyReq) => r.asid == c.asid)).map (fun (r : CopyReq) =>
      if r.limit = 0 then s.copyBound r else r.limit - s.ticks)).foldl Nat.max 32

/-- The context for whose engines an event is. -/
def State.engineAsid (s : State) (e : Instr) : Option Nat :=
  match e with
  | .statusFill id | .packetLanding id _ _ | .pullRequest (.landing id) => (s.landing? id).map (·.hdr.asid)
  | .copyRequestArrival id | .chunkLanding id _ => (s.copy? id).map (·.asid)
  | .acceptanceReply id => (s.asker? id).map (·.1.asid)
  | _ => none

/-- What the engines of a context that is being pre-empted have under way is there by the tick by which everything stops (R355; log
119). -/
def State.hurryEngines (s : State) (c : Ctx) : State :=
  let due := Nat.max (s.ticks + 1) c.stopBy
  let mine := fun (e : Instr) => s.engineAsid e == some c.asid
  let s1 := s.pullForward due mine
  { s1 with
    copies := s1.copies.map (fun r => if r.asid = c.asid && r.limit = 0 && !r.held then { r with limit := due } else r),
    xbar := { s1.xbar with pkts := s1.xbar.pkts.map (fun p =>
      if mine p.event then { p with latest := if p.latest = 0 then due else Nat.min p.latest due } else p) } }

/-- A kernel that is dispatched and has no thread yet waits for its dispatch again: its queue waits at its packet (R334, R336; log
118). -/
def State.undispatch (s : State) (asid : Nat) : State :=
  (s.kernels.filter (fun e => e.2.asid == asid && e.2.phase == .dispatched && e.2.created == 0)).foldl (fun (st : State) (e : Nat × Kernel) =>
    (({ st with kernels := st.kernels.put e.1 { e.2 with phase := .waiting, placed := [] } }.cancelTimer (.threadCreation e.1)).modQueue
      e.2.queue (fun q => { q with begun := false }))) s

/-- The mark of a pre-emption (R354, step 1; R355). -/
def State.markStop (s : State) (c : Ctx) : State :=
  (s.undispatch c.asid).modCtx c.asid (fun x => { x with phase := .stopping, stopBy := s.ticks + s.stopTime c })

/-- PREEMPTION: the context's threads, waits, stores and engines come to rest, tick by tick; then the save begins (R354,
R355). -/
def execPreemption (asid : Nat) (s : State) : Host.Outcome State Fault Refusal :=
  .next (match s.ctx? asid with
    | none => s
    | some c =>
      if c.phase ≠ .live && c.phase ≠ .stopping then s
      else
        let s1 := if c.phase = .live then s.markStop c else s
        let s2 := ((((s1.threadsOf asid).map (·.id)).foldl State.stopThread s1).hurry asid).hurryEngines ((s1.ctx? asid).getD c)
        let d := s2.draw (s2.saveTicks c)
        if s2.readyToSave c then d.2.sched_ (Nat.max (s.ticks + 1) (Nat.min (s.ticks + 1 + d.1)
            (((s1.ctx? asid).getD c).stopBy + 600 + s2.saveTicks c))) rankLast (.saveComplete asid)
        else s2.after_ 1 rankLast (.preemption asid))

/-- The part of a memory that lies in the local stores of some rows. -/
def memoryOf (m : Memory) (rows : List Nat) : Memory :=
  let mine := fun (k : Nat) => 2 ^ 39 ≤ k && k < 2 ^ 40 && rows.contains ((k - 2 ^ 39) / 2 ^ 20)
  { bytes := m.bytes.filter (fun e => mine e.1), full := m.full.filter (fun e => mine (e.1 * 8)),
    poison := m.poison.filter (fun e => mine (e.1 * 8)), badCode := [] }

/-- SAVE_COMPLETE: the microcode has written the save area; the context's cores and rows are free (R354, step 7; R356). -/
def execSaveComplete (asid : Nat) (s : State) : Host.Outcome State Fault Refusal :=
  .next (match s.ctx? asid with
    | none => s
    | some c =>
      if c.phase ≠ .stopping then s
      else
        let sv : Saved := { threads := s.threadsOf asid, cores := s.cores.filter (fun e => c.rows.contains (e.1 / 4)),
                            rows := s.rows.filter (fun e => c.rows.contains e.1), mem := memoryOf s.mem c.rows,
                            parts := (s.saveParts c).map List.length }
        let s1 := (s.setMem (s.mem.writeN c.save (s.saveImage c))).forget ((s.threadsOf asid).map (·.id)) c.rows
        let s2 := { s1 with threads := s1.threads.filter (fun e => e.2.asid != asid) }
        (s2.modCtx asid (fun c => { c with phase := .saved, saved := some sv, stopTick := s.ticks })).rowsFreed c.rows)

/-! ### The restore (R336, R360) -/

/-- The entries of a memory are written over another. -/
def Memory.merge (m x : Memory) : Memory :=
  { m with bytes := x.bytes.foldl (fun (t : Tab Byte) (e : Nat × Byte) => t.setD e.1 e.2 0) m.bytes,
           full := x.full.foldl (fun (t : Tab Bool) (e : Nat × Bool) => t.setD e.1 e.2 false) m.full,
           poison := x.poison.foldl (fun (t : Tab Bool) (e : Nat × Bool) => t.setD e.1 e.2 false) m.poison }

/-- The first poisoned cell of a range, by address. -/
def Memory.firstPoison (m : Memory) (a n : Nat) : Option Nat :=
  (List.find? (fun (e : Nat × Bool) => e.2 && a < e.1 * 8 + 8 && e.1 * 8 < a + n) m.poison).map (fun e => e.1 * 8)

/-- The value that an accumulator entry takes when an error strikes it (R306): the canonical quiet NaN of its slot type, or 0
for INT64. -/
def struckValue (ty : BitVec 2) : W64 :=
  if ty = 1 then 0x7FC00000 else if ty = 2 then 0x7FF8000000000000 else 0

/-- An entry of an accumulator is struck (R306). -/
def RowRec.strike (r : RowRec) (key : Nat) : RowRec :=
  { r with acc := r.acc.setD key (struckValue (r.types.getD (key / 4096) 0)) 0,
           badAcc := if r.badAcc.contains key then r.badAcc else r.badAcc ++ [key] }

/-- The entry that a byte of a row record holds, or whose window it holds. -/
def rowEntry (r : RowRec) (o : Nat) : Option Nat :=
  if 4480 ≤ o && o < 266624 then some ((o - 4480) / 8)
  else if 266624 ≤ o then
    let i := (o - 266624) / 65760
    let b := (o - 266624) % 65760
    match r.queue[i]? with
    | some f => match f.arrs with
      | a :: _ => if 224 ≤ b then some (a.slot * 4096 + (b - 224) / 16) else none
      | [] => none
    | none => none
  else none

/-- What poison in the save area does to a restored row or local store (R360). -/
def State.restorePoison (s : State) (c : Ctx) (sv : Saved) : State :=
  let rows := c.rows.mergeSort
  let at0 := c.save + 64 + (sv.parts.take 3).sum
  let cores := rows.flatMap (fun r => [4 * r, 4 * r + 1, 4 * r + 2, 4 * r + 3])
  let bad := (s.mem.poison.filter (fun e => e.2 && at0 ≤ e.1 * 8 && e.1 * 8 < c.save + 64 + sv.parts.sum)).map (fun e => e.1 * 8 - at0)
  bad.foldl (fun (st : State) (o : Nat) =>
    let n := cores.length * 204736
    if o < n then
      (if 8128 ≤ o % 204736 then
        match cores[o / 204736]? with
        | some k => st.setMem (st.mem.strike ((localKey k 0 + (o % 204736 - 8128)) / 8))
        | none => st
      else st)
    else match rows[(o - n) / 529664]? with
      | some r => match rowEntry (st.row r) ((o - n) % 529664) with
        | some key => st.modRow r (fun w => w.strike key)
        | none => st
      | none => st) s

/-- The tick at which a restored context runs (R360, step 4). -/
def restoreTick (s : State) (c : Ctx) (t : Nat) : Nat :=
  if (s.liveKernels c.asid).any (fun k => k.detlvl == 2) then (t + 65535) / 65536 * 65536 else t

/-- Whether a waiting LAUNCH of higher priority could be dispatched now on a row of a saved context: it goes first (R336). -/
def State.outranked (s : State) (c : Ctx) : Bool :=
  s.kernels.any (fun e => e.2.phase == .waiting && s.ctxPrio c.asid < (s.queue e.2.queue).prio + 1 && !s.planHeld e.1 e.2 &&
    match s.ctx? e.2.asid with
    | some d => d.phase == .live && (s.placeNow d e.2).any (fun l => l.any (fun p => c.rows.contains (p.1 / 4)))
    | none => false)

/-- RESTORE: with all rows free, code, rows, cores and threads come back to their places (R336, R360, steps 1 to 3). An
uncorrectable error in the header, the kernel table, the code image or a thread record ends the context. -/
def execRestore (asid : Nat) (s : State) : Host.Outcome State Fault Refusal :=
  .next (match s.ctx? asid with
    | none => s
    | some c =>
      match c.saved with
      | none => s
      | some sv =>
        if c.phase ≠ .saved || !c.rows.all s.rowFree || s.outranked c then s
        else
          let f := s.draw (4096 + (64 + sv.parts.sum + 8191) / 8192)
          let s0 := f.2.modCtx asid (fun c => { c with phase := .restoring, saved := none, clusters := [] })
          match s.mem.firstPoison c.save (64 + (sv.parts.take 3).sum) with
          | some a => (s0.modCtx asid (fun c => { c with rows := [] })).fatalCtx asid
              { tick := s.ticks, cause := .poison, tid := none, kernel := 0, epc := 0, val := at_ a 0, tcause := 0,
                origin := s.ni.peer, notice := false }
          | none =>
            let lo := fun (m : Memory) (r : Nat) => m.clearRange (localKey (4 * r) 0) (localKey (4 * r + 4) 0)
            let s1 := s0.setMem ((c.rows.foldl lo s0.mem).merge sv.mem)
            let s2 := { s1 with
              cores := sv.cores.foldl (fun t e => t.put e.1 e.2) (s1.cores.filter (fun e => !c.rows.contains (e.1 / 4))),
              rows := sv.rows.foldl (fun t e => t.put e.1 e.2) (s1.rows.filter (fun e => !c.rows.contains e.1)) }
            let s3 := ((c.rows.map (fun r => clusterOf (4 * r))).eraseDups).foldl (fun (st : State) (n : Nat) => st.holdCluster asid n) s2
            let s4 := sv.threads.foldl State.putThread (s3.restorePoison c sv)
            s4.sched_ (restoreTick s4 c (s.ticks + 1 + f.1)) rankLast (.restoreReady asid))

/-- RESTORE_READY: at tick tr every thread is ready, the in-flight matrix instructions restart, bound messages land, and the
queues go on (R360, R387). -/
def execRestoreReady (asid : Nat) (s : State) : Host.Outcome State Fault Refusal :=
  .next (match s.ctx? asid with
    | none => s
    | some c =>
      if c.phase ≠ .restoring then s
      else
        let s1 := s.modCtx asid (fun c => { c with phase := .live })
        let s2 := (s1.threadsOf asid).foldl (fun (st : State) (th : Thread) =>
          let gone : Bool := match st.kernels.find? th.kernel with | some k => k.cancel | none => false
          st.putThread { th with run := .ready, gapUntil := Nat.max th.gapUntil s.ticks, cancel := th.cancel || gone }) s1
        let s3 := c.rows.foldl (fun (st : State) (r : Nat) => if (st.row r).queue.isEmpty then st else st.beginRow r) s2
        (s3.startNext asid).retryQueues.retryDispatch)

end Sys2Proof.Machine
end

