-- ==== Sys2Proof/Machine/Control.lean ====
section
/-! DEFINITION. Branches and jumps (spec 04 R110 to R115), and the two trap instructions (08 R223, R224). -/

namespace Sys2Proof.Machine

/-- The condition of a branch (R87). -/
def condHolds (c : Cond) (a : W64) : Bool :=
  match c with
  | .eqz => a == 0
  | .nez => a != 0
  | .ltz => a.toInt < 0
  | .gez => 0 ≤ a.toInt
  | .gtz => 0 < a.toInt
  | .lez => a.toInt ≤ 0
  | .odd => bit a 0
  | .even => !bit a 0

/-- B: a follower takes the leader's direction; a branch not taken checks nothing (R110, R113, R115). -/
def execB (st : Stall) (c : Cond) (a : XReg) (off : BitVec 14) (s : State) : Host.Outcome State Fault Refusal :=
  issue s st none (.rd [a]) (fun s1 th =>
    if condHolds c (th.getX a) then transfer s1 th (branchTarget th.insn off) id else .ok s1)

/-- DBNZ: xa − 1 is written, and the branch is taken when it is not zero (R111). -/
def execDbnz (st : Stall) (a : XReg) (off : BitVec 14) (s : State) : Host.Outcome State Fault Refusal :=
  issue s st none (.dd a latAlu) (fun s1 th =>
    let v := th.getX a - 1
    if v ≠ 0 then transfer s1 th (branchTarget th.insn off) (fun s2 => s2.writeReg th.id latAlu (.x a v))
    else .ok (s1.writeReg th.id latAlu (.x a v)))

/-- J: the link is pc + 4 (R112). -/
def execJ (st : Stall) (d : XReg) (off : BitVec 17) (s : State) : Host.Outcome State Fault Refusal :=
  issue s st none (.d d latAlu) (fun s1 th =>
    transfer s1 th (jumpTarget th.insn off)
      (fun s2 => s2.writeReg th.id latAlu (.x d (BitVec.ofNat 64 (th.insn + 4)))))

/-- JR: xa is read before the link is written (R112). -/
def execJr (st : Stall) (d a : XReg) (imm : BitVec 10) (s : State) : Host.Outcome State Fault Refusal :=
  issue s st none (.da d a latAlu) (fun s1 th =>
    transfer s1 th (th.getX a + imm.signExtend 64)
      (fun s2 => s2.writeReg th.id latAlu (.x d (BitVec.ofNat 64 (th.insn + 4)))))

/-- TRAP: TRAPINSN with the code, at the TRAP's own address (R223). -/
def execTrap (st : Stall) (code : BitVec 10) (s : State) : Host.Outcome State Fault Refusal :=
  issue s st none .none (fun _ _ => .trap .trapinsn (code.zeroExtend 64))

/-- TRET: control passes to TEPC.ADDR × 4, checked as a transfer (R224). -/
def execTret (st : Stall) (s : State) : Host.Outcome State Fault Refusal :=
  issue s st none .none (fun s1 th =>
    transfer s1 th th.returnTarget (fun s2 => if th.isFollower then s2 else s2.modThread th.id (·.returnFromTrap)))

end Sys2Proof.Machine
end

