-- ==== Sys2Proof/Machine/Fabric.lean ====
section
/-! DEFINITION. Meanings of the events of links, lanes, spares and ports, of the fabric control block and the fabric registers
(spec 23 R413 to R423, R431, R442 to R447, R476; 24 R448 to R451; 25 R453). -/

namespace Sys2Proof.Machine

/-! ### Links and ports -/

def State.link (s : State) (l : Nat) : Link := s.fabric.links.getD l (Link.reset l)
def State.modLink (s : State) (l : Nat) (f : Link → Link) : State :=
  { s with fabric := { s.fabric with links := s.fabric.links.setD l (f (s.link l)) (Link.reset l) } }
def State.port (s : State) (p : Nat) : Port := s.fabric.ports.getD p Port.reset

/-- Whether a pair belongs to a port and carries its flits, or would: neither failed nor a spare still training. -/
def Link.active (k : Link) (p : Nat) : Bool := k.port == p && !k.failed && !k.attaching

/-- The active pairs of a port (R414). -/
def State.pairsOf (s : State) (p : Nat) : List Nat := (List.range 128).filter (fun l => (s.link l).active p)

/-- The free spare pairs, lowest first (R448). -/
def State.freeSpares (s : State) : List Nat :=
  (List.range 128).filter (fun l => (s.link l).port == 7 && !(s.link l).failed && !(s.link l).attaching)

/-- The attachments that the package optical switch has still to make, to ports of a kind (R448). -/
def State.attachesTo (s : State) (p : Nat → Bool) : Nat :=
  let is := fun (e : Instr) => match e with | .spareAttach q => p q | _ => false
  (s.sched.timers.filter (fun e => is e.2.2)).length + (s.sched.agenda.filter is).length

/-- An event that a record of this tick's snapshot must not show waits for it (R450). -/
def State.unlessSnapshot (s : State) (e : Instr) (go : State) : State :=
  if s.sched.agenda.contains .counterSnapshot then s.sched_ s.ticks rankLand e else go

/-- STATE codes (R444). -/
def portCode : PortState → Nat
  | .active => 0 | .draining => 1 | .dark => 2 | .relock => 3 | .down => 4

/-- Fills PSTAT of a port (R443, R444). -/
def State.fillStatus (s : State) (p code : Nat) : State :=
  if s.fabric.fcb = 0 then s
  else
    let a := s.fabric.fcb + 64 * p + 8
    (s.setMem (s.mem.setWord a (at_ (portCode (s.port p).state) 0 ||| at_ code 8))).setFull (a / 8) true

/-- The other packages of a port's ring: those whose coordinates differ in the port's dimension only. -/
def State.ringPeers (s : State) (p : Nat) : List Nat :=
  let o := ringOwn s.ni.ring
  s.otherPeers.filter (fun n =>
    let c := entryCoord (s.ni.table.getD n 1)
    if p < 2 then c.2 == o.2 else if p < 4 then c.1 == o.1 && c.2.2 == o.2.2 else c.1 == o.1 && c.2.1 == o.2.1)

/-- A HOLD or RELEASE notice of an own port: in force here at once, sent to the packages of its ring (R445). -/
def State.holdPort (s : State) (p : Nat) : State :=
  let s1 := { s with ni := { s.ni with holds := s.ni.holds ++ [(s.ni.peer, p)] } }
  (s.ringPeers p).foldl (fun (st : State) (n : Nat) => st.tell n (.hold p)) s1

def State.endHold (s : State) (peer p : Nat) : State :=
  { s with ni := { s.ni with holds := s.ni.holds.filter (fun h => !(h.1 == peer && h.2 == p)) } }

def State.releasePort (s : State) (p : Nat) (down : Bool) : State :=
  if s.ni.holds.any (fun h => h.1 == s.ni.peer && h.2 == p) then
    (s.ringPeers p).foldl (fun (st : State) (n : Nat) => st.tell n (.release p down)) (s.endHold s.ni.peer p)
  else s

/-- Counts a request sent again, at the port by which it leaves now (R447; log 123). -/
def State.countResent (s : State) (peer seq : Nat) : State :=
  match (s.outReq? peer seq).bind (·.port) with
  | some p => s.modPort p (fun r => { r with resent := r.resent + 1 })
  | none => s

/-- An unanswered request is sent again round the ring of a dimension by the other direction, and then every 65,536 ticks; one that
goes that way already goes on as it does: it is never sent twice on one path at a time (R435). -/
def State.resend (s : State) (o : OutReq) (dim : Nat) : State :=
  if o.otherDir.contains dim then s
  else
    let k := (o.req.target, o.req.seq)
    let s1 := (s.cancelTimer (.requestResend k.1 k.2)).modReq k.1 k.2 (fun x => { x with
      otherDir := o.otherDir ++ [dim], route := s.routeTo k.1 (o.otherDir ++ [dim]) })
    (s1.countResent k.1 k.2).after_ 65536 rankLast (.requestResend k.1 k.2)

/-- A port of a package is down: unanswered requests over it, and those that wait for it, go by the other direction of the ring (R435,
R445, R476). -/
def State.rerouteFrom (s : State) (peer p : Nat) : State :=
  s.ni.out.foldl (fun (st : State) (o : OutReq) =>
    if (st.linksOf o).contains (st.linkOf peer p) then
      if o.sent then st.resend o (p / 2)
      else st.modReq o.req.target o.req.seq (fun x => { x with otherDir := if x.otherDir.contains (p / 2) then x.otherDir else x.otherDir ++ [p / 2] })
    else st) s

/-- A link pair of an own port fails, and the port has others: an unanswered request that has gone over that pair is sent again by the other
direction; which pair each has taken is a free choice (R423, R435; log 123). -/
def State.resendFrom (s : State) (p : Nat) : State :=
  s.ni.out.foldl (fun (st : State) (o : OutReq) =>
    if o.sent && o.port = some p then
      let d := st.draw 2
      if d.1 = 0 then d.2.resend o (p / 2) else d.2
    else st) s

/-- REQUEST_RESEND (R435): a request of whose route a link has failed elsewhere goes by the other direction of that ring, the failed link
being a free choice; one that goes so already is sent again every 65,536 ticks until it is answered, and never twice at a time. One that
the allowance or the credits have held at injection leaves now (R426, R429, R452; log 121). -/
def execRequestResend (peer seq : Nat) (s : State) : Host.Outcome State Fault Refusal :=
  .next (match s.outReq? peer seq with
    | none => s
    | some o =>
      if !o.sent then (if o.holdTo ≤ s.ticks then (s.modReq peer seq (fun x => { x with holdTo := 0 })).injectAll else s)
      else match o.otherDir, o.route with
        | [], l :: ls =>
          let d := s.draw (l :: ls).length
          d.2.resend o (((l :: ls).getD d.1 l).2 / 2)
        | [], [] => s
        | _ :: _, _ =>
          if s.sched.timers.any (fun e => e.2.2 == .requestResend peer seq) then s
          else (s.countResent peer seq).after_ 65536 rankLast (.requestResend peer seq))

/-- A port changes state: PSTAT is filled, and the notices of the change go out (R444, R445). -/
def State.enterPort (s : State) (p : Nat) (st : PortState) (code : Nat) : State :=
  let s0 := (((s.cancelTimer (.darklimExpiry p)).cancelTimer (.relockLock p)).cancelTimer (.relockFail p true)).cancelTimer
    (.relockFail p false)
  let s1 := (s0.modPort p (fun r => { r with state := st, changes := r.changes + 1, since := s.ticks, markers := 0,
                                             acked := false })).fillStatus p code
  match st with
  | .draining => s1.holdPort p
  | .dark => s1.after_ s.fabric.darklim.toNat Sys2Proof.Machine.rankFault (.darklimExpiry p)
  | .active => (s1.releasePort p false).injectAll
  | .down => ((s1.releasePort p true).rerouteFrom s.ni.peer p).injectAll
  | .relock => s1

/-! ### Commands (R443, R444, R453) -/

/-- The NI takes the command that a full PCMD cell holds; a command overwritten by another is taken as the other. -/
def State.takeCommand (s : State) (p : Nat) (own : Instr) (act : W64 → State → State) : State :=
  let a := s.fabric.fcb + 64 * p
  if s.fabric.fcb = 0 || 5 < p || !s.mem.isFull (a / 8) then s
  else
    let w := s.mem.word a
    if pcmdEvent p w = own then act w (s.setFull (a / 8) false) else s.nextNow [pcmdEvent p w]

/-- DRAIN (R444, R453): its markers are acknowledged after a free time. -/
def State.startDrain (s : State) (p : Nat) : State := (s.enterPort p .draining 0).later 0 rankLand (.portDark p)

def execDrain (port : Nat) (s : State) : Host.Outcome State Fault Refusal :=
  .next (s.takeCommand port (.drain port) (fun _ s1 =>
    match (s1.port port).state with
    | .active => s1.startDrain port
    | .relock => s1.fillStatus port 1
    | .draining | .dark | .down => s1.fillStatus port 0))

/-- A port trains: it locks, finds another neighbour, or has not locked after 70,000 ticks; without a pair nothing locks until a spare
does (R444, R448). -/
def State.startRelock (s : State) (p code : Nat) : State :=
  let s1 := s.enterPort p .relock code
  let d := s1.draw 3
  if (s.pairsOf p).isEmpty then s1.after_ 70000 rankLand (.relockFail p false)
  else if d.1 = 0 then d.2.later 69999 rankLand (.relockLock p)
  else if d.1 = 1 then d.2.later 69999 rankLand (.relockFail p true)
  else d.2.after_ 70000 rankLand (.relockFail p false)

/-- The pairs that a port holds or is about to: a spare that trains for it and one that the switch is to attach count (R414, R448). -/
def State.holding (s : State) (p : Nat) : Nat :=
  ((List.range 128).filter (fun l => (s.link l).port == p && !(s.link l).failed)).length + s.attachesTo (· == p)

/-- A RELOCK of a port in DOWN attaches free spares, lowest first, up to 20 pairs; one is left for every attachment that the switch has to
make (R414, R444, R448). -/
def State.attachSpares (s : State) (p : Nat) : State :=
  (s.freeSpares.take (Nat.min (20 - s.holding p) (s.freeSpares.length - s.attachesTo (fun _ => true)))).foldl (fun (st : State) (l : Nat) =>
    st.modLink l (fun k => { k with port := p })) s

/-- RELOCK (R444, R453). -/
def execRelock (port : Nat) (s : State) : Host.Outcome State Fault Refusal :=
  .next (s.takeCommand port (.relock port) (fun w s1 =>
    let go := fun (st : State) =>
      (st.modPort port (fun r => { r with npeer := fld w 3 11, nport := fld w 14 3 })).startRelock port 0
    match (s1.port port).state with
    | .dark => go s1
    | .down => go (s1.attachSpares port)
    | .active | .draining | .relock => s1.fillStatus port 1))

/-- PCMD_RESERVED (R443). -/
def execPcmdReserved (port : Nat) (s : State) : Host.Outcome State Fault Refusal :=
  .next (s.takeCommand port (.pcmdReserved port) (fun _ s1 => s1.fillStatus port 1))

/-- A draining port whose markers are acknowledged, with the neighbour's on every incoming link, goes DARK (R444). -/
def State.checkDark (s : State) (p : Nat) : State :=
  let r := s.port p
  if r.state = .draining && r.acked && (s.pairsOf p).length ≤ r.markers then s.enterPort p .dark 0 else s

/-- DRAIN_MARKER_ARRIVAL: a neighbour's marker drains an ACTIVE port (R444, R446). -/
def execDrainMarkerArrival (port : Nat) (s : State) : Host.Outcome State Fault Refusal :=
  let s1 := if (s.port port).state = .active then s.startDrain port else s
  .next (s.unlessSnapshot (.drainMarkerArrival port) (if (s1.port port).state = .draining then
      (s1.modPort port (fun r => { r with markers := r.markers + 1 })).checkDark port
    else s1))

/-- PORT_DARK: the port's own markers are acknowledged; with the neighbour's markers all here it goes DARK (R444, R446). -/
def execPortDark (port : Nat) (s : State) : Host.Outcome State Fault Refusal :=
  .next (if (s.port port).state = .draining then
      (s.modPort port (fun r => { r with acked := true })).checkDark port
    else s)

/-- DARKLIM_EXPIRY: RELOCK without a command, toward the neighbour of the last ACTIVE period, CODE 4, when DARKLIM ticks have passed in
DARK; it comes behind a command of its tick (R444, R453). -/
def execDarklimExpiry (port : Nat) (s : State) : Host.Outcome State Fault Refusal :=
  let due := (s.port port).since + s.fabric.darklim.toNat
  .next (if (s.port port).state ≠ .dark then s
    else if due ≤ s.ticks then s.startRelock port 4
    else (s.cancelTimer (.darklimExpiry port)).sched_ due Sys2Proof.Machine.rankFault (.darklimExpiry port))

/-- A new DARKLIM holds for the ports that are DARK: each expires by it (R442, R444). -/
def State.newDarklim (s : State) (v : BitVec 32) : State :=
  (List.range 6).foldl (fun (st : State) (p : Nat) =>
    if (st.port p).state = .dark then
      (st.cancelTimer (.darklimExpiry p)).sched_ (Nat.max (st.ticks + 1) ((st.port p).since + v.toNat)) Sys2Proof.Machine.rankFault (.darklimExpiry p)
    else st) { s with fabric := { s.fabric with darklim := v } }

/-- RELOCK_LOCK: every active pair has locked; a port that has none fails to lock unless a spare comes (R444, R448). -/
def execRelockLock (port : Nat) (s : State) : Host.Outcome State Fault Refusal :=
  .next (if (s.port port).state ≠ .relock then s
    else if !(s.pairsOf port).isEmpty then s.enterPort port .active 0
    else (s.cancelTimer (.relockFail port false)).sched_ (Nat.max (s.ticks + 1) ((s.port port).since + 70000)) rankLand (.relockFail port false))

/-- RELOCK_FAIL: another neighbour, CODE 2, or no lock, CODE 3 (R444). -/
def execRelockFail (port : Nat) (other : Bool) (s : State) : Host.Outcome State Fault Refusal :=
  .next (if (s.port port).state = .relock then s.enterPort port .down (if other then 2 else 3) else s)

/-- HOLD_NOTICE (R445). -/
def execHoldNotice (peer port : Nat) (s : State) : Host.Outcome State Fault Refusal :=
  .next { s with ni := { s.ni with holds := if s.ni.holds.contains (peer, port) then s.ni.holds else s.ni.holds ++ [(peer, port)] } }

/-- RELEASE_NOTICE: the hold ends; when the port is down, what waits for it and what has been injected across it goes by the other direction
of the ring (R435, R445, R476). -/
def execReleaseNotice (peer : Nat) (port : ReleasedPort) (s : State) : Host.Outcome State Fault Refusal :=
  let s1 := s.endHold peer port.port
  .next (if port.down then s1.rerouteFrom peer port.port else s1).injectAll

/-- Whether an entry of the peer-table image may be applied (R431, R443). -/
def imageOk (i : Nat) (e : W64) : Bool :=
  fld e 13 51 = 0 && fld e 5 4 ≤ 11 && fld e 9 4 ≤ 11 && (i < 1152 || fld e 0 2 = 1)

/-- Whether a ring word may be applied (R443). -/
def ringOk (r : W64) : Bool :=
  let n := ringSize r
  let o := ringOwn r
  fld r 23 41 = 0 && 1 ≤ n.1 && n.1 ≤ 8 && 1 ≤ n.2.1 && n.2.1 ≤ 12 && 1 ≤ n.2.2 && n.2.2 ≤ 12 &&
    o.1 < n.1 && o.2.1 < n.2.1 && o.2.2 < n.2.2

/-- PTCMD: applied whole at one tick, or rejected whole (R443). -/
def execPtcmd (s : State) : Host.Outcome State Fault Refusal :=
  let f := s.fabric.fcb
  let cell := (f + 0x808) / 8
  .next (if f = 0 || !s.mem.isFull cell then s
    else
      let w := s.mem.word (f + 0x808)
      let first := fld w 0 11
      let count := fld w 11 11 + 1
      let rings := bit w 22
      let ring := s.mem.word (f + 0x800)
      let es := (List.range count).map (fun i => (first + i, s.mem.word (f + 0x1000 + 8 * (first + i))))
      let ok := fld w 23 41 = 0 && first + count ≤ 2048 && es.all (fun e => imageOk e.1 e.2) && (!rings || ringOk ring)
      let s1 := s.setFull cell false
      let s2 := if ok then
          { s1 with ni := { s1.ni with
              table := es.foldl (fun (t : Tab W64) (e : Nat × W64) => t.setD e.1 e.2 1) s1.ni.table,
              ring := if rings then ring else s1.ni.ring } }
        else s1
      let a := f + 0x810
      ((s2.setMem (s2.mem.setWord a (if ok then w else w ||| at_ 1 63))).setFull (a / 8) true).injectAll)

/-! ### Lanes and retraining (R420, R421, R449, R451) -/

def Link.lane (k : Link) (i : Nat) : FibLane := k.lanes.getD i FibLane.reset
def Link.setLane (k : Link) (i : Nat) (f : FibLane → FibLane) : Link := { k with lanes := k.lanes.set i (f (k.lane i)) }

/-- The first tick after now at which a slot whose number is a multiple of 8 begins (R415, R421). -/
def nextGroup (now : Nat) : Nat := 16 * (now / 16 + 1)

/-- Ends seven-lane mode: the slots that have begun in it are counted; a slot begins at every even tick (R415, R449). -/
def Link.eightLanes (k : Link) (now : Nat) : Link :=
  match k.sevenSince with
  | some t => { k with sevenSince := none, sevenSlots := k.sevenSlots + BitVec.ofNat 64 ((now + 1) / 2 - (t + 1) / 2) }
  | none => k

/-- Whether a lane is in HANDBACK, TRAIN or RETURN. -/
def LaneState.between : LaneState → Bool
  | .handback | .train | .ret => true
  | .up | .failed => false

/-- The lane that may be handed back now, or the lanes that fail instead (R421). -/
inductive LaneStep where
  | nothing
  | handback (i : Nat)
  | fail (is : List Nat)
  deriving DecidableEq, Repr

def Link.laneStep (k : Link) : LaneStep :=
  let due := (List.range 8).filter (fun i => (k.lane i).due && (k.lane i).state == .up)
  if k.lanes.any (fun x => x.state.between) then .nothing
  else match due with
    | [] => .nothing
    | i :: _ => if k.lanes.any (fun x => x.state == .failed) then .fail due else .handback i

/-- A lane that is due is handed back, or with a FAILED lane beside it fails, and the link with it (R421, R423). -/
def State.nextLane (s : State) (l : Nat) : State :=
  if (s.link l).failed then s
  else match (s.link l).laneStep with
    | .nothing => s
    | .handback i => (s.modLink l (fun k => k.setLane i (fun x => { x with state := .handback }))).sched_ (nextGroup s.ticks) rankLand
        (.laneHandback l i)
    | .fail is => (s.modLink l (fun k => is.foldl (fun (k : Link) (i : Nat) => k.setLane i (fun x => { x with state := .failed })) k)).nextNow [.linkFail l]

/-- LANE_PRECORRECTION_ERROR: both counts rise outside TRAIN and FAILED; the lane falls due when its window count first exceeds
its threshold (R420, R449). A window that starts in this tick starts first (R449), and a snapshot comes before (R450). -/
def execLanePrecorrectionError (link lane count : Nat) (s : State) : Host.Outcome State Fault Refusal :=
  let k := s.link link
  let x := k.lane lane
  .next (if 127 < link || 7 < lane || k.failed || x.state = .train || x.state = .failed then s
    else if s.sched.agenda.contains .laneWindowStart || s.sched.agenda.contains .counterSnapshot then s.sched_ s.ticks rankLand (.lanePrecorrectionError link lane count)
    else
      let due : Bool := x.thresh ≠ 0 && x.window ≤ x.thresh && x.thresh < x.window + count && x.state == .up
      (s.modLink link (fun k => k.setLane lane (fun x => { x with
        window := x.window + count, total := x.total + BitVec.ofNat 64 count, due := x.due || due }))).nextLane link)

/-- LANE_WINDOW_START: every window count is cleared, and the threshold in force is LTHRESH (R420, R449, R451). -/
def execLaneWindowStart (s : State) : Host.Outcome State Fault Refusal :=
  .next ((List.range 128).foldl (fun (st : State) (l : Nat) => st.modLink l (fun k => { k with
    lanes := k.lanes.map (fun x => { x with window := 0, thresh := s.fabric.lthresh.toNat }) })) s)

/-- An attempt at training ends within 35,000 ticks, in success or failure (R421). -/
def State.startAttempt (s : State) (l i : Nat) : State :=
  let d := s.draw 2
  d.2.later 35000 rankLand (.trainAttemptEnd l i (d.1 == 0))

/-- LANE_HANDBACK: at the boundary the link is in seven-lane mode and the lane trains (R421, R449). -/
def execLaneHandback (link lane : Nat) (s : State) : Host.Outcome State Fault Refusal :=
  .next (if ((s.link link).lane lane).state = .handback && !(s.link link).failed then
      (s.modLink link (fun k => { k.setLane lane (fun x => { x with state := .train, tries := 0 }) with
        sevenSince := k.sevenSince.orElse (fun _ => some s.ticks), retrains := k.retrains + 1 })).startAttempt link lane
    else s)

/-- TRAIN_ATTEMPT_END: success returns the lane at the next boundary; a second failure in succession fails it (R421). -/
def execTrainAttemptEnd (link lane : Nat) (ok : Bool) (s : State) : Host.Outcome State Fault Refusal :=
  let k := s.link link
  let x := k.lane lane
  .next (if x.state ≠ .train || k.failed then s
    else if ok then
      (s.modLink link (fun k => k.setLane lane (fun x => { x with state := .ret }))).sched_ (nextGroup s.ticks) rankLand
        (.laneReturn link lane)
    else if x.tries = 0 then (s.modLink link (fun k => k.setLane lane (fun x => { x with tries := 1 }))).startAttempt link lane
    else (s.modLink link (fun k => k.setLane lane (fun x => { x with state := .failed, due := false }))).nextLane link)

/-- LANE_RETURN: at the boundary the link is in eight-lane mode, the lane is UP and its window count is cleared (R421). -/
def execLaneReturn (link lane : Nat) (s : State) : Host.Outcome State Fault Refusal :=
  .next (if ((s.link link).lane lane).state = .ret && !(s.link link).failed then
      (s.modLink link (fun k => ((k.setLane lane (fun x => { x with state := .up, due := false, window := 0, tries := 0 })).eightLanes
        s.ticks))).nextLane link
    else s)

/-! ### The end of a link pair, and spares (R423, R448) -/

/-- Timed events of a link's lanes. -/
def eventLink : Instr → Option Nat
  | .laneHandback l _ | .trainAttemptEnd l _ _ | .laneReturn l _ | .linkFail l | .spareLock l _ => some l
  | _ => none

/-- What becomes of a lane whose link fails: one that trains or changes mode has failed, since its link leaves seven-lane mode (R450;
log 124). -/
def FibLane.linkFails (x : FibLane) : FibLane := if x.state.between then { x with state := .failed } else x

/-- With no active pair left, a port in ACTIVE, DRAINING or RELOCK goes DOWN, CODE 5 (R423, R444). -/
def State.lastPair (s : State) (p : Nat) : State :=
  let st := (s.port p).state
  if (s.pairsOf p).isEmpty && (st = .active || st = .draining || st = .relock) then s.enterPort p .down 5 else s.checkDark p

/-- A port that no spare can serve any more (R423, R448). -/
def State.checkPairs (s : State) (p : Nat) : State :=
  if (List.range 128).any (fun l => (s.link l).port == p && (s.link l).attaching) ||
      (0 < s.attachesTo (· == p) && !s.freeSpares.isEmpty) then s.checkDark p
  else s.lastPair p

/-- Whether the package holds a free spare pair for a failure (R423, R448). -/
def State.spareFree (s : State) : Bool := s.attachesTo (fun _ => true) < s.freeSpares.length

/-- A pair stops carrying flits; what its replay buffer holds goes over another pair of the port (R423). -/
def State.breakLink (s : State) (l : Nat) : State :=
  let k := s.link l
  let s1 := { s with sched := { s.sched with
    timers := s.sched.timers.filter (fun e => !(eventLink e.2.2 == some l)),
    agenda := s.sched.agenda.filter (fun e => !(eventLink e == some l)) } }
  let s2 := s1.modLink l (fun k => { k.eightLanes s.ticks with
    failed := true, attaching := false, replay := [], lanes := k.lanes.map FibLane.linkFails })
  match s2.pairsOf k.port with
  | m :: _ => s2.modLink m (fun x => { x with replay := x.replay ++ k.replay })
  | [] => s2

/-- A link pair fails: what it carried unanswered may go again, a free spare is attached within 1,750 ticks, and with none a port without
pairs goes DOWN (R423, R435, R448). -/
def State.failLink (s : State) (l : Nat) : State :=
  let k := s.link l
  if 127 < l || k.failed then s
  else
    let s1 := s.breakLink l
    if 5 < k.port then s1
    else
      let s2 := if k.attaching then s1 else s1.resendFrom k.port
      if s1.spareFree then s2.later 1750 rankLand (.spareAttach k.port) else s2.lastPair k.port

/-- LINK_LOCK_LOSS (R423, R424). -/
def execLinkLockLoss (link : Nat) (s : State) : Host.Outcome State Fault Refusal :=
  .next (s.unlessSnapshot (.linkLockLoss link) (s.failLink link))

/-- LINK_FAIL (R423). -/
def execLinkFail (link : Nat) (s : State) : Host.Outcome State Fault Refusal :=
  .next (s.unlessSnapshot (.linkFail link) (s.failLink link))

/-- A spare trains: it carries flits from the first group of 8 slots after its lock, or fails to lock (R448). -/
def State.trainSpare (s : State) (l : Nat) : State :=
  let d := s.draw 70000
  let o := d.2.draw 2
  o.2.sched_ (nextGroup (s.ticks + 1 + d.1)) rankLand (.spareLock l (o.1 == 0))

/-- SPARE_ATTACH: the lowest free spare is attached to the port and trains, when the port holds fewer than 20 pairs (R414, R448). -/
def execSpareAttach (port : Nat) (s : State) : Host.Outcome State Fault Refusal :=
  .next (match s.freeSpares with
    | [] => s.checkPairs port
    | l :: _ =>
      if 20 ≤ s.holding port then s
      else (s.modLink l (fun k => { k with port := port, attaching := true, spareFails := 0 })).trainSpare l)

/-- SPARE_LOCK: the spare carries flits, and a port in RELOCK that had no pair locks with it; one that fails twice is marked failed, and
the next is tried (R444, R448). -/
def execSpareLock (link : Nat) (ok : Bool) (s : State) : Host.Outcome State Fault Refusal :=
  let k := s.link link
  .next (if !k.attaching then s
    else if ok then
      let s1 := s.modLink link (fun k => { k with attaching := false })
      if (s.port k.port).state = .relock && (s.pairsOf k.port).isEmpty then s1.nextNow [.relockLock k.port] else s1
    else if k.spareFails = 0 then (s.modLink link (fun k => { k with spareFails := 1 })).trainSpare link
    else
      let s1 := s.modLink link (fun k => { k with attaching := false, failed := true, spareFails := 2 })
      if s1.spareFree then s1.later 1750 rankLand (.spareAttach k.port) else s1.checkPairs k.port)

/-- ALIGNMENT_LOSS: the package marks its links down (R416, R423). -/
def execAlignmentLoss (s : State) : Host.Outcome State Fault Refusal :=
  let s1 := { s with fabric := { s.fabric with aligned := false } }
  let s2 := (List.range 128).foldl State.breakLink s1
  .next (s.unlessSnapshot .alignmentLoss ((List.range 6).foldl State.checkPairs s2))

/-! ### Flits (R415, R417 to R419, R475) -/

/-- The slot that covers a tick. -/
def slotOf (t : Nat) : Nat := t / 2

/-- The lanes of a link that carry flit bytes, lowest first: all eight, or the seven that stay UP while one is outside it (R421). -/
def Link.flitLanes (k : Link) : List Nat :=
  if k.sevenSince.isSome then (List.range 8).filter (fun i => (k.lane i).state == .up || (k.lane i).state == .handback)
  else List.range 8

/-- The lane that carries byte b of flit i of a group of slots, and the place of the byte on that lane: in the flit's slot, or in
seven-lane mode in the group of 8 slots that carries 7 flits (R418). -/
def Link.laneOf (k : Link) (i b : Nat) : Nat × Nat :=
  if k.sevenSince.isSome then (k.flitLanes.getD ((72 * i + b) % 7) 0, (72 * i + b) / 7) else (b % 8, b / 8)

/-- Slots that n flits of one packet take at most in seven-lane mode (R475). -/
def sevenLaneSlots (n : Nat) : Nat := (8 * n + 6) / 7 + 1

/-- One bit of CRC-32C, low bit first. -/
def crcBit (c : Nat) (b : Bool) : Nat := if (c % 2 == 1) != b then (c / 2) ^^^ 0x82F63B78 else c / 2

/-- CRC-32C of bytes (R417). -/
def crc32c (bs : List Byte) : Nat :=
  (bs.foldl (fun (c : Nat) (b : Byte) => (List.range 8).foldl (fun (c : Nat) (i : Nat) => crcBit c (b.getLsbD i)) c) 0xFFFFFFFF) ^^^ 0xFFFFFFFF

def flitCrcOk (f : Flit) : Bool := f.payload.length = 64 && crc32c (f.payload ++ leBytes 4 f.trailer.toNat) = fld f.trailer 32 32
def flitLseq (f : Flit) : BitVec 12 := BitVec.ofNat 12 (fld f.trailer 6 12)
def flitLack (f : Flit) : BitVec 12 := BitVec.ofNat 12 (fld f.trailer 18 12)

/-- The flits of a replay buffer that a LACK does not cover. -/
def afterLack (lack : BitVec 12) (l : List Flit) : List Flit :=
  match l.findIdx? (fun f => flitLseq f == lack) with
  | some i => l.drop (i + 1)
  | none => l

/-- FLIT_RECEIVE: a flit with a good CRC and the next LSEQ is kept, counted unless IDLE, and its LACK frees the paired link's
replay buffer; any other is discarded, as is one of a pair that carries none (R417, R419, R448). -/
def execFlitReceive (link : Nat) (f : Flit) (s : State) : Host.Outcome State Fault Refusal :=
  let k := s.link link
  .next (if k.failed || k.attaching || 5 < k.port || !flitCrcOk f || flitLseq f ≠ k.expect then s
    else s.unlessSnapshot (.flitReceive link f) (s.modLink link (fun k => { k with
      lack := flitLseq f, expect := k.expect + 1, flits := if bit f.trailer 5 then k.flits else k.flits + 1,
      replay := afterLack (flitLack f) k.replay })))

/-- REPLAY_RESEND: the sender resends from the first flit not covered; more than 16 replays in 65,536 ticks fail the link
(R419, R423). -/
def execReplayResend (link : Nat) (lack : BitVec 12) (s : State) : Host.Outcome State Fault Refusal :=
  let k := s.link link
  .next (if k.failed then s
    else
      let ts := k.replayTicks.filter (fun t => s.ticks < t + 65536) ++ [s.ticks]
      let s1 := s.modLink link (fun k => { k with replay := afterLack lack k.replay, replays := k.replays + 1, replayTicks := ts })
      s.unlessSnapshot (.replayResend link lack) (if 16 < ts.length then s1.failLink link else s1))

/-! ### Fabric registers (R442, R451) -/

/-- LANECLR_WRITE: FAILED lanes are cleared and return at the next boundary; a failed pair becomes a free spare (R421, R442,
R448). -/
def execLaneclrWrite (val : W64) (s : State) : Host.Outcome State Fault Refusal :=
  let l := fld val 16 7
  let k := s.link l
  let s0 := { s with fabric := { s.fabric with laneclr := at_ l 16 } }
  .next (if k.failed then
      s0.modLink l (fun k => { k with
        port := 7, spare := true, failed := false, attaching := false, spareFails := 0,
        lanes := k.lanes.map (fun x => { x with state := .up, due := false, tries := 0, window := 0 }) })
    else
      ((List.range 8).filter (fun i => bit val i && (k.lane i).state == .failed)).foldl (fun (st : State) (i : Nat) =>
        (st.modLink l (fun k => k.setLane i (fun x => { x with state := .ret, due := false, tries := 0 }))).sched_ (nextGroup s.ticks)
          rankLand (.laneReturn l i)) s0)

/-- DBOUND_WRITE: below 262,144 it is stored as 262,144 (R442). -/
def execDboundWrite (val : W64) (s : State) : Host.Outcome State Fault Refusal :=
  .next { s with fabric := { s.fabric with dbound := BitVec.ofNat 32 (Nat.max 262144 (fld val 0 32)) } }

/-- LTHRESH_WRITE: it applies from each lane's next window start (R442, R451). -/
def execLthreshWrite (val : W64) (s : State) : Host.Outcome State Fault Refusal :=
  .next { s with fabric := { s.fabric with lthresh := BitVec.ofNat 32 val.toNat } }

end Sys2Proof.Machine
end

