-- ==== Sys2Proof/Machine/Errors.lean ====
section
/-! DEFINITION. Meanings of the storage errors, the scrubbers and the counter snapshot (spec 01 R34; 14 R303, R306, R307, R309,
R323; 16 R362; 23 R447; 24 R450; 26 R473). -/

namespace Sys2Proof.Machine

/-! ### Storage errors (R34, R303, R306, R307, R309, R323) -/

/-- Adds to a counter of the package page alone: an error that no context's access or engine met (R362). -/
def State.countPackage (s : State) (word n : Nat) : State :=
  { s with pkg := s.pkg.setD word (s.pkg.getD word 0 + BitVec.ofNat 64 n) 0 }

/-- Adds to a counter of the context that owns the storage, if one does, and of the package page. -/
def State.countOwner (s : State) (owner : Option Nat) (word : Nat) : State :=
  match owner with
  | some a => s.count a word 1
  | none => s.countPackage word 1

/-- The context that holds a row (R12). -/
def State.rowOwner (s : State) (row : Nat) : Option Nat :=
  (List.find? (fun (e : Nat × Ctx) => e.2.phase != .saved && e.2.rows.contains row) s.ctxs).map (·.1)

/-- The first context that has a segment over DRAM bytes. -/
def State.segOwner (s : State) (a n : Nat) : Option Nat :=
  (List.find? (fun (e : Nat × Ctx) => e.2.phase != .ended && e.2.phase != .destroying && e.2.segAllows a n false false) s.ctxs).map (·.1)

/-- The overflow entries of a channel in order. -/
def State.overflowOf (s : State) (channel : Nat) : List DetEntry := s.det.filter (fun d => d.channel == channel && d.overflow)

/-- What an uncorrectable error does to the storage it strikes (R34, R306, R307, R309, R323). -/
def State.corrupt (s : State) (site : ErrSite) : State :=
  match site with
  | .localCell core cell => s.strike (localKey core (8 * cell) / 8)
  | .dramGroup g => (List.range 4).foldl (fun (st : State) (i : Nat) => st.strike (4 * g + i)) s
  | .accEntry row slot r n => s.modRow row (fun w => w.strike ((slot * 32 + r) * 128 + n))
  | .codeWord cluster w => s.setMem { s.mem with
      badCode := if s.mem.badCode.contains (codeKey cluster (4 * w)) then s.mem.badCode
        else s.mem.badCode ++ [codeKey cluster (4 * w)] }
  | .overflowEntry ch i =>
    match (s.overflowOf ch)[i]? with
    | some d => { s with det := s.det.filter (fun x => !(x == d)) }.strike (d.cell / 8)
    | none => s
  | .eagerGroup g => { s with rxe := { s.rxe with badGroups := if s.rxe.badGroups.contains g then s.rxe.badGroups else s.rxe.badGroups ++ [g] } }

/-- Whether the package has the storage that a site names. -/
def State.siteExists (s : State) (site : ErrSite) : Bool :=
  match site with
  | .localCell core cell => core < Config.cores && cell < 24576
  | .dramGroup g => 32 * g < Config.dramBytes
  | .accEntry row slot r n => row < Config.rows && slot < 8 && r < 32 && n < 128
  | .codeWord cluster w => cluster < Config.clusters && w < 65536
  | .overflowEntry ch i => i < (s.overflowOf ch).length
  | .eagerGroup g => g < 8192 * 16

/-- The counter word of an uncorrectable error (R362), and the context it is counted for. -/
def State.errorCount (s : State) (site : ErrSite) : Nat × Option Nat :=
  match site with
  | .localCell core _ => (3, s.rowOwner (core / 4))
  | .dramGroup g => (5, s.segOwner (32 * g) 32)
  | .accEntry row _ _ _ => (7, s.rowOwner row)
  | .codeWord cluster w => (6, (List.find? (fun (e : Nat × Ctx) => e.2.clusters.contains cluster && e.2.loaded (4 * w)) s.ctxs).map (·.1))
  | .overflowEntry ch i => (11, ((s.overflowOf ch)[i]?).map (·.asid))
  | .eagerGroup _ => (5, none)

/-- UNCORRECTABLE_ERROR (R34): the storage is struck and the error is counted. -/
def execUncorrectableError (site : ErrSite) (s : State) : Host.Outcome State Fault Refusal :=
  .next (if s.siteExists site then
      let e := s.errorCount site
      ((s.corrupt site).countOwner e.2 e.1).retryDet
    else s)

/-- SCRUB (R303, R309, R362): a corrected error is counted; an uncorrectable one strikes the storage. -/
def execScrub (site : ErrSite) (corrected : Bool) (s : State) : Host.Outcome State Fault Refusal :=
  .next (if s.siteExists site then
      let w := (s.errorCount site).1
      if corrected then (if w = 3 || w = 5 then s.countPackage (w - 1) 1 else s)
      else ((s.corrupt site).countPackage w 1).retryDet
    else s)

/-! ### Counter and management pages (R362, R447, R450, R473) -/

/-- Words 1 to 15 of a counter page. -/
def headerWord (ticks : Nat) (counters : Tab W64) (i : Nat) : W64 :=
  if i = 1 then BitVec.ofNat 64 ticks else if i = 15 then 0 else counters.getD i 0

/-- Words 32 to 39 of the package page (R473). -/
def State.powerWord (s : State) (pwr : Nat) (i : Nat) : W64 :=
  match i with
  | 32 => BitVec.ofNat 64 pwr
  | 33 => s.host.energy
  | 34 => s.host.tjMax.zeroExtend 64
  | 35 => s.host.drtMax.zeroExtend 64
  | 36 => BitVec.ofNat 64 ((s.rows.filter (fun e => e.2.mappedOut)).length)
  | 37 => s.host.ucLoads
  | _ => 0

/-- A port record (R447). -/
def State.portWord (s : State) (p i : Nat) : W64 :=
  let r := s.port p
  match i with
  | 0 => at_ (portCode r.state) 0 ||| at_ (s.pairsOf p).length 8 ||| at_ r.changes.toNat 32
  | 1 => r.held
  | 2 => r.resent
  | 3 => r.cutoff
  | _ => 0

/-- The two bits of a lane (R447). -/
def laneCode : LaneState → Nat
  | .up => 0 | .handback => 1 | .train => 2 | .ret => 1 | .failed => 3

/-- Whether a link carries flits. -/
def State.linkUp (s : State) (k : Link) : Bool :=
  k.port < 6 && !k.failed && !k.attaching && ((s.port k.port).state == .active || (s.port k.port).state == .draining)

/-- A link record (R447, R449). -/
def State.linkWord (s : State) (l i : Nat) : W64 :=
  let k := s.link l
  match i with
  | 0 => at_ (if k.attaching then 7 else k.port) 0 ||| atB k.spare 3 ||| atB k.sevenSince.isSome 4 ||| atB (s.linkUp k) 5 |||
      (List.range 8).foldl (fun (w : W64) (n : Nat) => w ||| at_ (laneCode (k.lane n).state) (6 + 2 * n)) 0 ||| at_ k.retrains.toNat 32
  | 1 => k.flits
  | 2 => k.replays
  | 3 => (k.eightLanes s.ticks).sevenSlots
  | _ => if 8 ≤ i then (k.lane (i - 8)).total else 0

/-- Word i of the package page (R362, R447, R473). -/
def State.packageWord (s : State) (pwr i : Nat) : W64 :=
  if i < 16 then headerWord s.ticks s.pkg i
  else if 32 ≤ i && i < 40 then s.powerWord pwr i
  else if 64 ≤ i && i < 112 then s.portWord ((i - 64) / 8) ((i - 64) % 8)
  else if 128 ≤ i && i < 2176 then s.linkWord ((i - 128) / 16) ((i - 128) % 16)
  else 0

/-- A page is rewritten: cell 0 empty, words 1 on, cell 0 with the sequence number and full. -/
def State.writePage (s : State) (a seq : Nat) (ws : List W64) : State :=
  let s1 := s.setFull (a / 8) false
  let s2 := s1.setMem (s1.mem.writeN (a + 8) (wordBytes ws))
  (s2.setMem (s2.mem.setWord a (BitVec.ofNat 64 seq))).setFull (a / 8) true

/-- The package page of a management context (R362). -/
def packagePage (c : Ctx) : Nat := Config.packagePage c.cnt % 2 ^ 27 * 4096

/-- The snapshot of one context's pages, with the values of the state v. -/
def State.snapshotCtx (s v : State) (c : Ctx) (pwr : Nat) : State :=
  let seq := c.snapSeq + 1
  let s1 := s.modCtx c.asid (fun x => { x with snapSeq := seq })
  let s2 := s1.writePage c.cnt seq.toNat ((List.range 15).map (fun i => headerWord v.ticks c.counters (i + 1)))
  if c.mgmt then s2.writePage (packagePage c) seq.toNat ((List.range 4095).map (fun i => v.packageWord pwr (i + 1))) else s2

/-- The units of energy that a power in µW makes over 1,024 ticks of 4/7 ns, each a mJ over 7 * 10^12 (R447, R473). -/
def energyUnits (p : Nat) : Nat := 4096 * p

/-- Power and temperature of the last 1,024 ticks (R473): measured, so free values; the power, here in µW, is at most 2,400 W (R4, R471), and
the energy is what it makes. -/
def State.measure (s : State) : Nat × State :=
  let p := s.draw 2400000001
  let e := p.2.host.energyPart + energyUnits p.1
  let t := p.2.draw 256
  (p.1 / 1000, { t.2 with host := { t.2.host with
    energy := t.2.host.energy + BitVec.ofNat 64 (e / (7 * 10 ^ 12)), energyPart := e % (7 * 10 ^ 12),
    drtMax := BitVec.ofNat 8 (Nat.max t.2.host.drtMax.toNat t.1) } })

/-- A peer of the domain of which nothing has come for 65,536 ticks may be cut off in both directions, and one that is cut off may be so no
longer: the state of the links between, which is free, says which. The pair is counted once for each time (R437, R447; log 114). -/
def State.noteCutOff (s : State) (peer : Nat) : State :=
  if s.ticks < s.ni.heard.getD peer 0 + 65536 then s
  else
    let d := s.draw 2
    if d.1 = 0 then d.2
    else if s.ni.cutOff.contains peer then
      { d.2 with ni := { d.2.ni with cutOff := d.2.ni.cutOff.filter (· != peer), heard := d.2.ni.heard.put peer s.ticks } }
    else match s.firstPort peer with
      | some p => { d.2 with ni := { d.2.ni with cutOff := d.2.ni.cutOff ++ [peer] } }.modPort p (fun r => { r with cutoff := r.cutoff + 1 })
      | none => d.2

/-- COUNTER_SNAPSHOT (R362, R450): every page is rewritten with the values at the start of the tick. -/
def execCounterSnapshot (s : State) : Host.Outcome State Fault Refusal :=
  let m := (s.otherPeers.foldl State.noteCutOff s).measure
  .next (m.2.ctxs.foldl (fun (st : State) (e : Nat × Ctx) =>
    if e.2.phase == .ended || e.2.phase == .destroying then st else st.snapshotCtx m.2 e.2 m.1) m.2)

end Sys2Proof.Machine
end

