-- ==== Sys2Proof/Machine/Global.lean ====
section
/-! DEFINITION. Meanings of the events of global accesses and of migration (spec 07 R176, R177; 14 R317 to R321; 23 R433 to
R437). -/

namespace Sys2Proof.Machine

/-! ### At the target (R317, R318, R433, R434, R436, R437) -/

/-- Whether an access may be answered by migration (R320). -/
def opMigrates (op : CellOp) : Bool :=
  match op with
  | .withdraw _ => false
  | o => !opStores o

/-- The place for a thread that comes from elsewhere: the lowest-indexed core of the context that fits, in a cluster that holds
its code (R320; R321, step 5). -/
def State.landingPlace (s : State) (c : Ctx) (xsize wheelCount : Nat) : Option (Nat × Occ) :=
  if c.phase = .live then
    (c.rows.flatMap (fun r => (List.range 4).map (fun i => 4 * r + i))).foldl (fun (b : Option (Nat × Occ)) core =>
      match b with
      | some x => if x.1 < core then b else (tryAt core).orElse (fun _ => b)
      | none => tryAt core) none
  else none
where
  tryAt (core : Nat) : Option (Nat × Occ) :=
    if c.clusters.contains (clusterOf core) then (placeOn (s.occupied core) xsize 0 wheelCount).map (fun o => (core, o))
    else none

/-- A waiting access is taken back (R181): its own answer says so; then the withdrawal is acknowledged. -/
def State.takeWait (s : State) (r : GReq) (n : Nat) : State :=
  match s.waits.find? (fun (w : FeEntry) => match w.remote with | some q => q.src == r.src && q.seq == n | none => false) with
  | none => s.answerReq r .ack
  | some w =>
    (({ s with waits := s.waits.filter (fun x => !(x.id == w.id)) }.recordAnswer r.src n .withdrawn).respond r.src n r.asid r.tid .withdrawn
      (match w.remote with | some q => q.bounded | none => false)).answerReq r .ack

/-- The requests of an issuing peer that cross to their channels, oldest first. -/
def State.crossingOf (s : State) (src : Nat) : List (GReq × Nat × Bool) := s.ni.crossing.filter (fun e => e.1.src == src)

/-- A translated request crosses from its gateway to the channel that holds its location (R397, R399); those before it of its pair come in
its class, since they are performed first (R434). -/
def State.crossReq (s : State) (r : GReq) (key : Nat) : State :=
  let gp := gatePort (s.gate r.src)
  let s1 := if r.bounded then (s.crossingOf r.src).foldl (fun (st : State) e => st.promote (gp * 8192 + (Config.cores + channelOf e.2.1))) s else s
  ({ s1 with ni := { s1.ni with crossing := s1.ni.crossing ++ [(r, key, false)] } }.recordReq r.src r.seq none).portPacket gp
    (Config.cores + channelOf key) r.bounded (s.reqKernel r) (match r.op with | .store n _ => n | _ => 8) 0
    (portTail (Config.cores + channelOf key) false (isAtomic r.op)) (rankArrive (globalName r.src r.tid)) (!ebbMet r.ts s.ticks)
    (.access r.src r.seq)

/-- A request whose number is next is translated at the NI and crosses to its channel, or is answered at once. Whether a thread of this
package migrates within it is decided when the answer reaches its core (R317, R318, R320, R433). -/
def State.performReq (s : State) (r : GReq) : State :=
  match s.ctx? r.asid with
  | none => s.recordReq r.src r.seq none
  | some c =>
    if c.phase = .ended || c.phase = .destroying then (s.count r.asid 14 1).recordReq r.src r.seq none
    else match r.op with
    | .withdraw n => s.takeWait r n
    | _ => match s.walk c r.va with
      | none => s.answerReq r .noXlate
      | some leaf =>
        let need := opRights r.op
        let key := leafAddr leaf r.va
        if (need.1 && !bit leaf.1 2) || (need.2 && !bit leaf.1 3) then s.answerReq r .protect
        else if bit leaf.1 4 && opMigrates r.op && !r.nomig &&
            (r.src = s.ni.peer || (s.landingPlace c r.xsize r.wheelCount).isSome) then
          s.answerReq r .migrate
        else s.crossReq r key

/-- A request is performed at its channel, and its answer goes back; a full/empty access whose condition fails, and a load that the LWM
holds, wait there (R181, R182, R188, R189, R433). -/
def State.performCross (s0 : State) (r : GReq) (key : Nat) : State :=
  let ps := reqLocs r key
  let s := s0.mayCorrect r.asid key
  match s.ctx? r.asid with
  | none => s
  | some c =>
    if c.phase = .ended || c.phase = .destroying then s.count r.asid 14 1
    else match r.op, r.det with
      | .amo f b, some d =>
        match s.detAccept r.asid key f b d.1 (globalName r.src r.tid) d.2 with
        | none => s.chanAnswer r key .refusedUpdate
        | some s1 => s1.chanAnswer r key .ack
      | .load _, some d =>
        if s.detHolds c d.1 ps false then { s with ni := { s.ni with atUnit := s.ni.atUnit ++ [(r, key)] } }
        else
          let x := s.readReq r key
          x.2.chanAnswer r key x.1
      | .load _, none =>
        let x := s.readReq r key
        x.2.chanAnswer r key x.1
      | op, _ =>
        match s.performAt ps op r.pte with
        | (.value v p, s1) => s1.chanAnswer r key (if opStores op then .ack else if p then .poisoned else .value v)
        | (.fails, _) =>
          if r.src = s.ni.peer && (s.thread? r.tid).any s.withdraws then s.chanAnswer r key .withdrawn
          else if r.limit = 0 then s.chanAnswer r key .timeout
          else match s.enterWait ((List.range 8).map (fun i => .dram (key + i))) 0 op r.limit 0 r.asid none (some r) with
            | some (_, s1) => s1
            | none => s.chanAnswer r key .refusedFull

/-- Requests of a pair are performed in order, each once it is at its channel and those before it have been (R434). -/
def State.drainCross (src : Nat) : Nat → State → State
  | 0, s => s
  | f + 1, s =>
    match s.crossingOf src with
    | (r, key, true) :: _ =>
      State.drainCross src f (({ s with ni := { s.ni with crossing := s.ni.crossing.filter (fun e => !(e.1.src == src && e.1.seq == r.seq)) } }).performCross
        r key)
    | _ => s

/-- A request is at its channel. -/
def State.crossArrives (s : State) (src seq : Nat) : State :=
  let s1 := { s with ni := { s.ni with crossing := s.ni.crossing.map (fun e => if e.1.src = src && e.1.seq = seq then (e.1, e.2.1, true) else e) } }
  State.drainCross src s1.ni.crossing.length s1

/-- A request whose number is next: performed, or abandoned when it came too late (R437). -/
def State.takeReq (s : State) (r : GReq) (late : Bool) : State :=
  if late then s.recordReq r.src r.seq none else s.performReq r

/-- Requests that waited for their predecessor are taken in turn. -/
def takeEarly (src : Nat) : Nat → State → State
  | 0, s => s
  | f + 1, s =>
    let n := s.ni.high.getD src 0
    match s.ni.early.find? (fun e => e.1.src == src && e.1.seq == n) with
    | none => s
    | some e =>
      takeEarly src f (({ s with ni := { s.ni with early := s.ni.early.filter (fun x => !(x.1.src == src && x.1.seq == n)) } }).takeReq
        e.1 e.2)

/-- Something of another package has come: it is not cut off (R437). -/
def State.hear (s : State) (peer : Nat) : State :=
  if peer = s.ni.peer then s
  else { s with ni := { s.ni with cutOff := s.ni.cutOff.filter (· != peer), heard := s.ni.heard.put peer s.ticks } }

/-- GLOBAL_REQUEST_ARRIVAL (R433, R434, R436, R437): a number in the record is answered from it, an old number is dropped, a
number ahead waits. -/
def execGlobalRequestArrival (r : GReq) (s0 : State) : Host.Outcome State Fault Refusal :=
  let s := s0.hear r.src
  .next (if r.target ≠ s.ni.peer then s.count r.asid 14 1 else match s.recorded r.src r.seq with
    | some (some a) => s.respond r.src r.seq r.asid r.tid a r.bounded
    | some none => s
    | none =>
      let next := s.ni.high.getD r.src 0
      let late : Bool := r.ts + s.fabric.dbound.toNat < s.ticks + 65536
      if 2 ^ 31 ≤ (r.seq + 2 ^ 32 - next) % 2 ^ 32 then s
      else if r.seq = next then takeEarly r.src s.ni.early.length (s.takeReq r late)
      else if s.ni.early.any (fun e => e.1.src == r.src && e.1.seq == r.seq) then s
      else { s with ni := { s.ni with early := s.ni.early ++ [(r, late)] } })

/-! ### At the issuer (R176, R433) -/

/-- The index of the lane that a request performs. -/
def Access.laneOf (a : Access) (key : Nat × Nat) : Option Nat :=
  a.lanes.findIdx? (fun l => l.sent == some key && l.val.isNone)

/-- A lane gets its answer, under the thread's own stores that it sees; the access ends with the last lane (R173). -/
def State.laneAnswered (s : State) (t : Tid) (a : Access) (i : Nat) (v : W64) (pois : Bool) (fail : Option Cause) : State :=
  match a.lanes[i]? with
  | some l =>
    let n := opSize l.op
    let b := (leBytes n v.toNat).zip (l.cover ++ List.replicate n none) |>.map (fun p => p.2.getD p.1)
    let bad := pois && !(!l.cover.isEmpty && l.cover.all (·.isSome))
    let a1 := a.setLane i { l with val := some (BitVec.ofNat 64 (leNat b)), pois := if bad then [2 ^ 50 + i] else [], back := true,
                                   fail := fail }
    (s.keepAccess t a1).settle t a1
  | none => s

/-- A part of a buffered store is performed, or lost: the entry frees with its last part (R173, R176). A loss that no thread is there
to take is counted (R362). -/
def State.storeAnswered (s : State) (asid : Nat) (t : Tid) (id : Nat) (key : Nat × Nat) (lost : Bool) : State :=
  match s.thread? t with
  | none => if lost then s.count asid 12 1 else s
  | some th =>
    match findEntry id [] th.sbuf with
    | none => if lost then s.count asid 12 1 else s
    | some (_, e) =>
      let i := (e.parts.findIdx? (fun p => p.sent == some key)).getD 0
      let a := ((e.parts[i]?).map (·.addr)).getD 0
      let s1 := if lost then s.loseStore t id i a else s
      let s2 := s1.settleEntry t (markPart e key)
      if lost && th.run == .parked .exitDrain then s2.fatalThread th .storelost a th.insn else s2

/-- A fatal answer ends the context (R43, R318). -/
def State.fatalAnswer (s : State) (r : GReq) (c : Cause) : State :=
  match s.thread? r.tid with
  | none => s
  | some th => s.fatalThread th c (at_ 1 63 ||| at_ r.target 52 ||| r.va) (s.faultPc th)

/-- Whether the target itself would take the thread, as far as it is this package (R320). -/
def State.fitsHere (s : State) (r : GReq) : Bool :=
  r.target ≠ s.ni.peer || match s.ctx? r.asid with
    | some c => (s.landingPlace c r.xsize r.wheelCount).isSome
    | none => false

/-- The answer of a request reaches the core of its thread (R433): values, acknowledgements, timeouts and faults. A waiting access that
was asked back is withdrawn by its own answer, or with the acknowledgement when it had been refused before (R181). -/
def State.answered (s : State) (r : GReq) (store : Option Nat) (res : GResult) : State :=
  let key := (r.target, r.seq)
  match res, store with
  | .noXlate, _ => s.fatalAnswer r .noxlate
  | .protect, _ => s.fatalAnswer r .protect
  | _, some id => s.storeAnswered r.asid r.tid id key false
  | res, none =>
    match s.waiting? r.tid with
    | some (.access a) =>
      match r.op with
      | .withdraw n =>
        if (s.outReq? r.target n).isNone && (a.laneOf (r.target, n)).isSome then
          (s.cancelTimer (.niRetry r.target n)).cameBack r.tid
        else s
      | _ => match a.laneOf key with
        | none => s
        | some i =>
          match res with
          | .value v => s.laneAnswered r.tid a i v false none
          | .ack => s.laneAnswered r.tid a i 0 false none
          | .poisoned => s.laneAnswered r.tid a i 0 true none
          | .timeout => s.laneAnswered r.tid a i 0 false (some .fetimeout)
          | .refusedUpdate => s.laneAnswered r.tid a i 0 false (some .refused)
          | .migrate => s.sched_ s.ticks rankEngine (.migrationAnswer r.tid key.1 (s.fitsHere r))
          | .withdrawn | .refusedFull => s.cameBack r.tid
          | .noXlate | .protect => s
    | _ => s

/-- An answer crosses from the gateway at which it has come in to the core of its thread (R399). -/
def State.sendReply (s : State) (o : OutReq) (res : GResult) : State :=
  s.portPacket (gatePort (s.gate o.req.target)) o.req.tid.core o.req.bounded (s.reqKernel o.req) 8 0 1
    (rankArrive (globalName s.ni.peer o.req.tid)) (!ebbMet o.req.ts s.ticks) (.reply o.req o.store res)

/-- The NI takes an answer in its turn: a queue's access ends here, one refused by a full list is sent again 64 ticks later (R182), and
every other answer goes on to its core; a late duplicate finds no request (R433, R435). -/
def State.takeAnswer (s : State) (r : GResp) : State :=
  match s.outReq? r.peer r.seq with
  | none => s
  | some o =>
    let s1 := s.dropReq r.peer r.seq
    (match o.queue with
      | some q => s1.queueAnswered q (r.peer, r.seq) (some r.result)
      | none =>
        if r.result == GResult.refusedFull && !(s.thread? o.req.tid).any s.withdraws then
          s1.after_ 64 (rankArrive (globalName s.ni.peer o.req.tid)) (.niRetry r.peer r.seq)
        else s1.sendReply o r.result).injectAll

/-- Answers that have waited for their predecessor are taken in turn (R434). -/
def drainAnswers (peer : Nat) : Nat → State → State
  | 0, s => s
  | f + 1, s =>
    let n := s.ni.respNext.getD peer 0
    match s.ni.respEarly.find? (fun e => e.peer == peer && e.num == n) with
    | none => s
    | some r =>
      drainAnswers peer f (({ s with ni := { s.ni with
        respEarly := s.ni.respEarly.filter (fun x => !(x.peer == peer && x.num == n)), respNext := s.ni.respNext.put peer ((n + 1) % 2 ^ 32) } }).takeAnswer r)

/-- An answer comes in: those of a peer are delivered in the order of their numbers, each once (R434). -/
def State.answerComes (s : State) (r : GResp) : State :=
  if 2 ^ 31 ≤ (r.num + 2 ^ 32 - s.ni.respNext.getD r.peer 0) % 2 ^ 32 || s.ni.respEarly.any (fun x => x.peer == r.peer && x.num == r.num) then s
  else
    let s1 := { s with ni := { s.ni with respEarly := s.ni.respEarly ++ [r] } }
    drainAnswers r.peer s1.ni.respEarly.length s1

/-- GLOBAL_RESPONSE_ARRIVAL (R433 to R435); one that is not for this package is dropped and counted (R452). -/
def execGlobalResponseArrival (r : GResp) (s : State) : Host.Outcome State Fault Refusal :=
  .next (if r.target ≠ s.ni.peer then s.count r.asid 14 1 else (s.hear r.peer).answerComes r)

/-- An answer that waits for its predecessors when its own request's bound ends is taken with those that wait before it: the missing ones
never come (R434, R437; log 122). -/
def State.forceAnswers (s : State) (peer seq : Nat) : State :=
  match s.ni.respEarly.find? (fun e => e.peer == peer && e.seq == seq) with
  | none => s
  | some r =>
    let before := fun (x : GResp) => x.peer == peer && 2 ^ 31 ≤ (x.num + 2 ^ 32 - (r.num + 1)) % 2 ^ 32
    let now := s.ni.respEarly.filter before
    let s1 := { s with ni := { s.ni with respEarly := s.ni.respEarly.filter (fun x => !before x),
                                         respNext := s.ni.respNext.put peer ((r.num + 1) % 2 ^ 32) } }
    drainAnswers peer s1.ni.respEarly.length (now.foldl State.takeAnswer s1)

/-- Sends the access of a lane again, under a new number: from its core, or at the NI (R182, R320). -/
def State.reissue (s : State) (t : Tid) (key : Nat × Nat) (limit : Nat) (nomig atNi : Bool) : State :=
  match s.thread? t, s.waiting? t with
  | some th, some (.access a) =>
    match a.laneOf key with
    | none => s
    | some i =>
      match a.lanes[i]? with
      | none => s
      | some l =>
        let q := if atNi then s.enqueueFor th l.addr l.op limit a.pte (th.detOf l.op) none nomig true a.bounded
          else s.requestAs th l.addr l.op limit a.pte (th.detOf l.op) none nomig a.bounded
        let a1 := { a.setLane i { l with sent := some q.1 } with limit := limit }
        (q.2.modThread t (fun u => { u with run := .parked (.access a1) })).injectAll
  | _, _ => s

/-- The thread whose lane waits for a request. -/
def State.laneOwner (s : State) (key : Nat × Nat) : Option (Tid × Access) :=
  s.threads.findSome? (fun e => match e.2.run with
    | .parked (.access a) => (a.laneOf key).map (fun _ => (e.2.id, a))
    | _ => none)

/-- NI_RETRY: a request refused by a full list goes again, and the retry counts (R181, R182, R433). -/
def execNiRetry (peer seq : Nat) (s : State) : Host.Outcome State Fault Refusal :=
  .next (match s.laneOwner (peer, seq) with
    | none => s
    | some (t, a) => s.reissue t (peer, seq) (a.limit - 1) ((s.thread? t).any (·.landed)) true)

/-- The tick at which a request unanswered counts as performed zero times: the bound covers transport, and a wait in a
target's list, or for the LWM at an atomic unit, comes on top of it (R176, R189, R437). -/
def State.expiryOf (s : State) (o : OutReq) : Nat :=
  (if s.heldAtUnit o.req then s.ticks + 1 else Nat.max o.req.ts o.heldTo) + s.fabric.dbound.toNat + if isWaiting o.req.op then 64 * o.req.limit else 0

/-- A number of this package's own pair is abandoned, unless it is taken (R434, R437). -/
def State.abandonOwn (s : State) (r : GReq) : State :=
  if r.target = s.ni.peer && (s.recorded r.src r.seq).isNone then
    let s1 := { s with ni := { s.ni with early := s.ni.early.filter (fun x => !(x.1.src == r.src && x.1.seq == r.seq)) } }
    if s1.ni.high.getD r.src 0 = r.seq then takeEarly r.src s1.ni.early.length (s1.recordReq r.src r.seq none)
    else { s1 with ni := { s1.ni with early := s1.ni.early ++ [(r, true)] } }
  else s

/-- DELIVERY_BOUND_EXPIRY (R176, R437): STORELOST for what writes, NOPEER for what reads only. -/
def execDeliveryBoundExpiry (peer seq : Nat) (s : State) : Host.Outcome State Fault Refusal :=
  .next (match (s.forceAnswers peer seq).outReq? peer seq with
    | none => s.forceAnswers peer seq
    | some o =>
      if !o.sent then s
      else if s.ticks < s.expiryOf o && !o.gone then s.sched_ (s.expiryOf o) rankLast (.deliveryBoundExpiry peer seq)
      else
        let s2 := (s.dropReq peer seq).abandonOwn o.req
        (match o.queue with
         | some q => s2.queueAnswered q (peer, seq) none
         | none =>
          match o.store with
          | some id => s2.storeAnswered o.req.asid o.req.tid id (peer, seq) true
          | none =>
            match s2.waiting? o.req.tid with
            | some (.access a) =>
              match a.laneOf (peer, seq) with
              | some i => s2.laneAnswered o.req.tid a i 0 false (some (if opReads o.req.op then .nopeer else .storelost))
              | none => s2
            | _ => s2).injectAll)

/-! ### Migration (R320, R321) -/

/-- The conditions on the thread (R320). -/
def State.mayMigrate (s : State) (th : Thread) : Bool :=
  th.xsize ≤ 32 && th.vsize = 0 && th.gang = .none && th.depth = 0 && (s.membersOf th.id).isEmpty &&
    !s.rxe.posted.any (fun r => (s.ranksOf th.id.core).contains r.drank)

/-- MIGRATION_ANSWER: the thread migrates when every condition holds now, else its access is answered with data (R320,
R321). -/
def execMigrationAnswer (t : Tid) (peer : Nat) (fits : Bool) (s : State) : Host.Outcome State Fault Refusal :=
  .next (match s.thread? t, s.waiting? t with
    | some th, some (.access a) =>
      match a.lanes.find? (fun l => l.val.isNone && l.sent.any (fun k => k.1 == peer)) with
      | none => s
      | some l =>
        let key := l.sent.getD (peer, 0)
        let s1 := s.dropReq key.1 key.2
        if fits && s.mayMigrate th then
          let s2 := (s.ranksOf t.core).foldl (fun st r => st.setRank r (st.ni.ranks.getD r 0 ||| at_ 1 25)) s1
          (s2.modThread t (fun u => { u with run := .parked (.transit peer a) })).shipThread t peer
        else s1.reissue t key a.limit true false
    | _, _ => s)

/-- The kernel of a thread that lands: its own, or one of another package. -/
def landedKernel (own : Nat) (m : SmallCtx) : Nat := if m.home.1 = own then m.kernel else (m.home.1 + 1) * 2 ^ 32 + m.kernel

/-- The thread that a small context makes in a slot: its access instruction is the next to issue. -/
def smallThread (own : Nat) (m : SmallCtx) (t : Tid) (o : Occ) (now : Nat) : Thread :=
  let b := newThread t m.asid (landedKernel own m)
  let u := { b with
    xbase := o.xbase, xsize := o.xsize, wheel := o.wheel, pc := m.pc, insn := m.pc, gapUntil := Nat.max (now + 1) m.gap, detCount := m.detCount,
    cap := m.cap, cancel := m.cancel, landed := true,
    csr := { fcsr := m.fcsr, vtime := m.vtime, tvec := m.tvec, tepc := m.tepc, tcause := m.tcause, tval := m.tval,
             tsave := m.tsave, chk := m.chk, feretry := BitVec.ofNat 32 m.feretry, detlvl := BitVec.ofNat 2 m.detlvl } }
  let u1 := (m.xs.zip (List.range 128)).foldl (fun u p => u.setX (BitVec.ofNat 7 p.2) p.1) u
  let u2 := (m.ms.zip (List.range 8)).foldl (fun u p => u.setM (BitVec.ofNat 3 p.2) p.1) u1
  (m.fms.zip (List.range 8)).foldl (fun u p => u.setF (BitVec.ofNat 3 p.2) p.1) u2

/-- A held header goes to its rank's new package, under a number; its place here is free when it is accepted there (R387). -/
def State.sendOn (s : State) (h : Header) (peer : Nat) : State :=
  let f := s.fresh
  let us : List (List Byte × List Nat) := (List.range h.units.length).map (fun q => s.unitBytes h q (Nat.min 512 (h.len - 512 * q)))
  let bad := us.flatMap (·.2)
  let h1 := { h with via := some (s.ni.peer, f.1), target := peer, payload := us.flatMap (·.1), pois := h.pois ++ bad }
  ({ f.2 with rxe := { f.2.rxe with unexp := f.2.rxe.unexp.map (fun x => if x = h then h1 else x) } }.count h.asid 8 bad.length).tell peer (.header h1)

/-- The numbers of the pairs to its ranks that were abandoned here since a thread left: its new package has not heard of them (R264). -/
def State.abandonedSince (s : State) (m : SmallCtx) : List (Nat × Nat) :=
  let told := fun (key : Nat) => ((m.pairs.find? (fun p => p.1 == key)).map (fun p => p.2.2)).getD (0, [])
  let keys := (s.rxe.nextSeq.map (·.1) ++ s.rxe.skipped.map (·.1)).eraseDups.filter (fun k => k / 2 ^ 32 == m.asid && m.ranks.contains (k % 2 ^ 16))
  keys.flatMap (fun k =>
    let held := (s.rxe.unexp.filter (fun h => headerPair h == k)).map (·.seq)
    let passed := (List.range ((s.rxe.nextSeq.getD k 0 + 2 ^ 32 - (told k).1) % 2 ^ 32)).map (fun i => ((told k).1 + i) % 2 ^ 32)
    ((passed.filter (fun n => !held.contains n) ++ (s.rxe.skipped.filter (·.1 == k)).map (·.2)).filter
      (fun n => !(told k).2.contains n)).map (fun n => (k, n)))

/-- Word that a thread has landed elsewhere: its ranks point there, the headers held and staged for them go there in order, behind them
word of the numbers abandoned meanwhile, and its source core's reservation ends (R260, R264; R321, step 5; R387). -/
def State.landedElsewhere (s : State) (m : SmallCtx) (peer core : Nat) : State :=
  let e := at_ peer 0 ||| at_ core 11 ||| at_ 1 24
  let s1 := m.ranks.foldl (fun st r => { st with ni := { st.ni with ranks := st.ni.ranks.setD r e 0 } }) s
  let its := fun (h : Header) => h.asid == m.asid && m.ranks.contains h.drank
  let mine := s1.rxe.unexp.filter its
  let level := match s.ctx? m.asid with | some c => c.level | none => 0
  let hs := if level = 0 then mine else mine.foldl (fun l h => insertHeader h l) []
  let s2 := hs.foldl (fun st h => st.sendOn h peer)
    { s1 with ni := { s1.ni with transits := s1.ni.transits.filter (fun x => !(x.ctx.home == m.home)) } }
  let s3 := { s2 with rxe := { s2.rxe with staged := s2.rxe.staged.filter (fun h => !its h) } }
  let s4 := (s.rxe.staged.filter its).foldl (fun st h => st.tell peer (.header { h with target := peer })) s3
  ((s.abandonedSince m).foldl (fun st x => st.tell peer (.abandon m.asid (x.1 / 2 ^ 16 % 2 ^ 16) (x.1 % 2 ^ 16) ⟨x.2, s.ni.peer, s.sched.ids⟩))
    s4).retryDispatch

/-- A thread comes back to its source core, whose windows and positions were kept, and its access is made once more, for data
(R321, step 5). -/
def State.landsBack (s : State) (x : Transit) (m : SmallCtx) : State :=
  let core := m.home.2.core
  match (List.range 64).find? (fun n => !(s.occupied core).any (fun y => y.slot == n)), x.acc.lanes.findSome? (fun l => if l.val.isNone then l.sent else none) with
  | some n, some key =>
    let t : Tid := { core := core, slot := n }
    let o : Occ := { slot := n, xbase := x.xbase, xsize := m.xs.length, vbase := 0, vsize := 0, wheel := x.wheel }
    let u := smallThread s.ni.peer m t o s.ticks
    let s1 := { s with ni := { s.ni with transits := s.ni.transits.filter (fun y => !(y.ctx.home == m.home)) } }
    let s2 := s1.putThread { u with pc := m.pc + 4, run := .parked (.access x.acc) }
    let e := at_ s.ni.peer 0 ||| at_ core 11 ||| at_ 1 24
    ((m.ranks.foldl (fun st r => st.setRank r e) s2).rankLands m.asid m.ranks).reissue t key x.acc.limit true false
  | _, _ => s.after_ 1 rankEngine (.migrationLanding m)

/-- A thread lands on a core of this package: it takes its slot and repeats its access, its ranks point here, and its source
package hears of it (R321, steps 5 and 6). -/
def State.landsAt (s : State) (m : SmallCtx) (core : Nat) (o : Occ) : State :=
  let t : Tid := { core := core, slot := o.slot }
  let e := at_ s.ni.peer 0 ||| at_ core 11 ||| at_ 1 24
  let s1 := s.putThread (smallThread s.ni.peer m t o s.ticks)
  let s2 := if m.home.1 = s.ni.peer then s1
    else ((s1.modCtx m.asid Ctx.spanning).takePairs m.ranks m.pairs).tell m.home.1 (.context { m with landed := some (s.ni.peer, core) })
  ((m.ranks.foldl (fun st r => st.setRank r e) s2).rankLands m.asid m.ranks).retryDispatch

/-- MIGRATION_LANDING: a small context takes a slot here, or goes back when no core takes it; a thread that comes back takes its
own core; or word comes that it has landed on another package (R321). -/
def execMigrationLanding (m : SmallCtx) (s : State) : Host.Outcome State Fault Refusal :=
  .next (match m.landed with
    | some (p, core) => if p = s.ni.peer then s else s.landedElsewhere m p core
    | none =>
      match s.ctx? m.asid with
      | none => s
      | some c =>
        let s0 := { s with ni := { s.ni with transits := s.ni.transits.filter (fun x => !(x.ctx.home == m.home)) } }
        if c.phase = .ended || c.phase = .destroying then s0.count m.asid 14 1
        else
          let home := s.ni.transits.find? (fun x => x.ctx.home == m.home)
          match (if m.back then none else s0.landingPlace c m.xs.length m.wheelCount), home with
          | some x, h => s0.landsAt { m with cancel := m.cancel || h.any (·.ctx.cancel) } x.1 x.2
          | none, some x =>
            if c.phase = .live then s.landsBack x { m with cancel := m.cancel || x.ctx.cancel }
            else s.after_ 64 rankEngine (.migrationLanding { m with back := true })
          | none, none => s.tell m.home.1 (.context { m with back := true }))

end Sys2Proof.Machine
end

