-- ==== Sys2Proof/Machine/Crypto.lean ====
section
/-! DEFINITION. SHA-384 and ECDSA on P-384, which the checks of an image and the attestation report name (spec 26 R464, R465; log 14). -/

namespace Sys2Proof.Machine

/-! ### SHA-384 -/

/-- Fills in the bits below b of the largest r with r ^ k ≤ n. -/
def rootBelow (k n : Nat) : Nat → Nat → Nat
  | 0, r => r
  | b + 1, r => rootBelow k n b (if (r + 2 ^ b) ^ k ≤ n then r + 2 ^ b else r)

/-- The first 64 bits of the fraction of a k-th root. -/
def rootFraction (k p : Nat) : W64 := BitVec.ofNat 64 (rootBelow k (p * 2 ^ (64 * k)) 72 0)

/-- The first 80 primes. -/
def shaPrimes : List Nat :=
  [2, 3, 5, 7, 11, 13, 17, 19, 23, 29, 31, 37, 41, 43, 47, 53, 59, 61, 67, 71] ++
  [73, 79, 83, 89, 97, 101, 103, 107, 109, 113, 127, 131, 137, 139, 149, 151, 157, 163, 167, 173] ++
  [179, 181, 191, 193, 197, 199, 211, 223, 227, 229, 233, 239, 241, 251, 257, 263, 269, 271, 277, 281] ++
  [283, 293, 307, 311, 313, 317, 331, 337, 347, 349, 353, 359, 367, 373, 379, 383, 389, 397, 401, 409]

/-- The round constants: cube roots of the primes. -/
def shaRounds : List W64 := shaPrimes.map (rootFraction 3)

/-- The eight working words of the hash. -/
structure Sha where
  a : W64
  b : W64
  c : W64
  d : W64
  e : W64
  f : W64
  g : W64
  h : W64
  deriving DecidableEq, Repr

def Sha.words (x : Sha) : List W64 := [x.a, x.b, x.c, x.d, x.e, x.f, x.g, x.h]

def Sha.add (x y : Sha) : Sha :=
  { a := x.a + y.a, b := x.b + y.b, c := x.c + y.c, d := x.d + y.d, e := x.e + y.e, f := x.f + y.f, g := x.g + y.g, h := x.h + y.h }

/-- The words a hash starts from: square roots of the ninth to sixteenth primes. -/
def Sha.start : Sha :=
  let r := rootFraction 2
  { a := r 23, b := r 29, c := r 31, d := r 37, e := r 41, f := r 43, g := r 47, h := r 53 }

/-- One round, with its message word and constant added. -/
def Sha.round (x : Sha) (w : W64) : Sha :=
  let t1 := x.h + (x.e.rotateRight 14 ^^^ x.e.rotateRight 18 ^^^ x.e.rotateRight 41) + ((x.e &&& x.f) ^^^ (~~~x.e &&& x.g)) + w
  let t2 := (x.a.rotateRight 28 ^^^ x.a.rotateRight 34 ^^^ x.a.rotateRight 39) + ((x.a &&& x.b) ^^^ (x.a &&& x.c) ^^^ (x.b &&& x.c))
  { a := t1 + t2, b := x.a, c := x.b, d := x.c, e := x.d + t1, f := x.e, g := x.f, h := x.g }

/-- The message schedule, newest word first. -/
def shaSchedule : Nat → List W64 → List W64
  | 0, l => l
  | n + 1, l =>
    let x := l.getD 1 0
    let y := l.getD 14 0
    shaSchedule n (((x.rotateRight 19 ^^^ x.rotateRight 61 ^^^ (x >>> 6)) + l.getD 6 0 +
      (y.rotateRight 1 ^^^ y.rotateRight 8 ^^^ (y >>> 7)) + l.getD 15 0) :: l)

/-- A big-endian number. -/
def beNat (b : List Byte) : Nat := leNat b.reverse
def beBytes (n v : Nat) : List Byte := (leBytes n v).reverse

/-- The big-endian words of n blocks of 8 bytes. -/
def beWords (n : Nat) (b : List Byte) : List W64 := (List.range n).map (fun i => BitVec.ofNat 64 (beNat ((b.drop (8 * i)).take 8)))

/-- One block of 128 bytes. -/
def Sha.block (x : Sha) (b : List Byte) : Sha :=
  let w := (shaSchedule 64 (beWords 16 b).reverse).reverse
  x.add ((w.zip shaRounds).foldl (fun (y : Sha) (p : W64 × W64) => y.round (p.1 + p.2)) x)

/-- The blocks of a message one after another. -/
def Sha.blocks : Nat → List Byte → Sha → Sha
  | 0, _, x => x
  | n + 1, b, x => Sha.blocks n (b.drop 128) (x.block (b.take 128))

/-- SHA-384 of bytes: 48 bytes. -/
@[irreducible] def sha384 (b : List Byte) : List Byte :=
  let m := b ++ [0x80] ++ List.replicate ((239 - b.length % 128) % 128) 0 ++ beBytes 16 (8 * b.length)
  ((Sha.blocks (m.length / 128) m Sha.start).words.take 6).flatMap (fun w => beBytes 8 w.toNat)

/-! ### P-384 -/

/-- The field, the order of the group, the curve's constant and its base point. -/
def p384 : Nat := 2 ^ 384 - 2 ^ 128 - 2 ^ 96 + 2 ^ 32 - 1
def p384Order : Nat := 0xFFFFFFFFFFFFFFFFFFFFFFFFFFFFFFFFFFFFFFFFFFFFFFFFC7634D81F4372DDF581A0DB248B0A77AECEC196ACCC52973
def p384B : Nat := 0xB3312FA7E23EE7E4988E056BE3F82D19181D9C6EFE8141120314088F5013875AC656398D8A2ED19D2A85C8EDD3EC2AEF
def p384Base : Nat × Nat :=
  (0xAA87CA22BE8B05378EB1C71EF320AD746E1D3B628BA79B9859F741E082542A385502F25DBF55296C3A545E3872760AB7,
   0x3617DE4A96262C6F5D9E98BF9292DC29F8F41DBD289A147CE9DA3113B5F0B8C00A60B1CE1D7E819D7A431D7C90EA0E5F)

/-- A power modulo m, over the low n bits of the exponent. -/
def powMod (m : Nat) : Nat → Nat → Nat → Nat
  | 0, _, _ => 1 % m
  | n + 1, x, e => if e % 2 = 1 then x * powMod m n (x * x % m) (e / 2) % m else powMod m n (x * x % m) (e / 2)

/-- The inverse modulo a prime of 384 bits. -/
def invMod (m x : Nat) : Nat := powMod m 384 (x % m) (m - 2)

/-- The chord or tangent of slope l at (x, y) and a point of abscissa u meets the curve again; the sum mirrors it. -/
def ecMeet (l x y u : Nat) : Nat × Nat :=
  let v := (l * l + 2 * p384 - x - u) % p384
  (v, (l * (x + p384 - v) + p384 - y) % p384)

/-- The sum of two points of the curve; none is the point at infinity. -/
def ecAdd : Option (Nat × Nat) → Option (Nat × Nat) → Option (Nat × Nat)
  | none, q => q
  | p, none => p
  | some (x, y), some (u, v) =>
    if x = u then
      if (y + v) % p384 = 0 then none
      else some (ecMeet ((3 * x * x + p384 - 3) * invMod p384 (2 * y) % p384) x y u)
    else some (ecMeet ((v + p384 - y) * invMod p384 (u + p384 - x) % p384) x y u)

/-- A multiple of a point, over the low n bits of the factor. -/
def ecMul : Nat → Nat → Option (Nat × Nat) → Option (Nat × Nat)
  | 0, _, _ => none
  | n + 1, k, p =>
    let q := ecMul n (k / 2) (ecAdd p p)
    if k % 2 = 1 then ecAdd p q else q

/-- Whether a point lies on the curve. -/
def onCurve (x y : Nat) : Bool := x < p384 && y < p384 && (y * y) % p384 = (x * x * x + (p384 - 3) * x + p384B) % p384

/-- Whether a signature of 96 bytes verifies under a public key of 96 bytes over a digest (R464). -/
@[irreducible] def ecdsaVerify (key sig digest : List Byte) : Bool :=
  let x := beNat (key.take 48)
  let y := beNat (key.drop 48)
  let r := beNat (sig.take 48)
  let s := beNat (sig.drop 48)
  let w := invMod p384Order s
  onCurve x y && r ≠ 0 && r < p384Order && s ≠ 0 && s < p384Order &&
    match ecAdd (ecMul 384 (beNat digest * w % p384Order) (some p384Base)) (ecMul 384 (r * w % p384Order) (some (x, y))) with
    | some q => q.1 % p384Order = r
    | none => false

/-- The public key of a secret number: x then y. -/
@[irreducible] def publicKey (d : Nat) : List Byte :=
  match ecMul 384 d (some p384Base) with
  | some q => beBytes 48 q.1 ++ beBytes 48 q.2
  | none => beBytes 96 0

/-- The signature of a digest by a secret number, with a number drawn for it: r then s (R465). -/
@[irreducible] def ecdsaSign (d k : Nat) (digest : List Byte) : List Byte :=
  let r := ((ecMul 384 k (some p384Base)).getD (0, 0)).1 % p384Order
  beBytes 48 r ++ beBytes 48 (invMod p384Order k * (beNat digest + r * d) % p384Order)

end Sys2Proof.Machine
end

