-- ==== Sys2Proof/Machine/Host.lean ====
section
/-! DEFINITION. Meanings of the events of the host link: power, reset, boot, partitions, contexts, attestation, registers, BAR 2
and the thermal sample (spec 15 R326; 23 R442; 26 R456 to R472). -/

namespace Sys2Proof.Machine

/-- A change that the host link makes: nothing while the package is without power or held in reset (R462). -/
def State.whenUp (s : State) (f : State → State) : State := if s.host.power && s.host.running then f s else s

/-- A command of the host: after a TRIP the package awaits the removal of power and takes none (R472; log 127). -/
def State.whenCool (s : State) (f : State → State) : State := s.whenUp (fun s => if s.host.trip then s else f s)

def State.vf (s : State) (n : Nat) : VfRec := s.host.vfs.getD n VfRec.reset
def State.modVf (s : State) (n : Nat) (f : VfRec → VfRec) : State :=
  { s with host := { s.host with vfs := s.host.vfs.setD n (f (s.vf n)) VfRec.reset } }

/-- The partition record of an exposed, bound virtual function (R456, R463). -/
def State.boundPart (s : State) (n : Nat) : Option (List W64) := if s.host.boot = 3 then s.partOf n else none

/-! ### Power and reset (R462, R463, R472) -/

/-- POWER_UP: the domains are raised and PWROK is asserted; RESET_N still holds the package (R462). -/
def execPowerUp (s : State) : Host.Outcome State Fault Refusal :=
  .next (if s.host.power then s else { s with host := { s.host with power := true, running := false } })

/-- RESET_RELEASE: TICKS is 0 and the boot ROM runs (R27, R462, R463). -/
def execResetRelease (s : State) : Host.Outcome State Fault Refusal :=
  .next (if s.host.power then { State.reset with host := { State.reset.host with mem := s.host.mem } } else s)

/-- POWER_REMOVAL: nothing runs and nothing is kept but fuses; host memory is not the package's (R462, R472). -/
def execPowerRemoval (s : State) : Host.Outcome State Fault Refusal :=
  .next { State.reset with host := { State.reset.host with mem := s.host.mem, power := false, running := false } }

/-! ### Images (R464) -/

/-- What an image at a bus address holds. -/
structure Image where
  head : List Byte      -- bytes 0 to 7
  key  : List Byte
  sig  : List Byte
  zero : List Byte
  body : List Byte
  svn  : Nat
  len  : Nat
  gap  : Nat            -- [63:48] of the first word
  deriving DecidableEq, Repr

def readImage (m : Tab Byte) (a : Nat) : Image :=
  let w := BitVec.ofNat 64 (leNat (hostRead m a 8))
  let n := fld w 0 32
  { head := hostRead m a 8, key := hostRead m (a + 8) 96, sig := hostRead m (a + 104) 96, zero := hostRead m (a + 200) 56,
    body := if n ≤ 2 ^ 26 then hostRead m (a + 256) n else [], svn := fld w 32 16, len := n, gap := fld w 48 16 }

/-- The first check that fails, by its code. -/
def imageFault (i : Image) (r : ImageRead) (svn : Nat) : Option Nat :=
  if i.len % 64 ≠ 0 || i.len < 64 || 2 ^ 26 < i.len || i.gap ≠ 0 || i.zero.any (· ≠ 0) then some 4
  else if r = .readError then some 5
  else if sha384 i.key ≠ Config.keyHash then some 1
  else if i.svn < svn then some 3
  else if !ecdsaVerify i.key i.sig (sha384 (i.head ++ i.body)) then some 2
  else none

/-- BOOTGO: in WAIT or FAIL the image is read and checked; the firmware runs, or FAIL holds its code (R463, R464). -/
def execBootgo (r : ImageRead) (s : State) : Host.Outcome State Fault Refusal :=
  .next (s.whenCool (fun s =>
    if s.host.boot = 1 || s.host.boot = 4 then
      let i := readImage s.host.mem (fld s.host.bootImg 12 52 * 4096)
      (match imageFault i r Config.fwSvn with
        | some c => { s with host := { s.host with boot := 4, bootCode := BitVec.ofNat 8 c } }
        | none => { s with host := { s.host with
            boot := 3, bootCode := 0, fwDigest := sha384 i.body, fwSvn := BitVec.ofNat 16 i.svn } }).interrupt 0 0
    else s))

/-! ### Partitions (R466, R467, R470) -/

/-- The clusters, queues and GiB of a record. -/
def partClusters (r : List W64) : List Nat := (List.range Config.clusters).filter (partHasCluster r)
def partVf (r : List W64) : Nat := fld (partWord r 0) 1 6

/-- The layout of a record (R466). -/
def partOk (r : List W64) : Bool :=
  bit (partWord r 0) 0 && fld (partWord r 0) 7 9 = 0 && fld (partWord r 0) 48 16 = 0 &&
    fld (partWord r 1) 9 7 = 0 && fld (partWord r 1) 25 39 = 0 && partDramBase r ≤ partDramLast r &&
    fld (partWord r 7) 32 32 = 0 && (List.range 8).all (fun i => partWord r (8 + i) = 0)

/-- Whether two records hold a VF, cluster, queue, ASID or GiB in common. -/
def partsClash (a b : List W64) : Bool :=
  partVf a = partVf b || (List.range 5).any (fun i => partWord a (3 + i) &&& partWord b (3 + i) ≠ 0) ||
    partWord a 2 &&& partWord b 2 ≠ 0 ||
    (partAsidBase a < partAsidBase b + partAsidCount b && partAsidBase b < partAsidBase a + partAsidCount a) ||
    (partDramBase a ≤ partDramLast b && partDramBase b ≤ partDramLast a)

/-- A context that CREATE has made and nothing has ended. -/
def Ctx.isLive (c : Ctx) : Bool := c.phase != .ended && c.phase != .destroying

/-- The live contexts of a partition. -/
def State.partCtxs (s : State) (p : Nat) : List Ctx :=
  (s.ctxs.map (·.2)).filter (fun c => c.isLive && (s.vf c.vf).bound == some p)

/-- The staged or held ranges of a context: segments, counter page, table area; first byte and bytes. -/
def segRange (g : W64 × W64) : List (Nat × Nat) :=
  if bit g.1 0 then [(fld g.1 12 27 * 4096, (fld g.2 12 27 + 1 - fld g.1 12 27) * 4096)] else []

def ctxRanges (segs : List (W64 × W64)) (save cnt tbl pages : Nat) : List (Nat × Nat) :=
  segs.flatMap segRange ++ [(save, 4096), (cnt, 4096), (tbl, 4096 * pages)]

/-- Whether what a live context uses stays in a record: its ASID, the clusters of its cores, segments, save area, counter page and pinned
frames (R467). -/
def State.ctxKept (s : State) (c : Ctx) (r : List W64) : Bool :=
  partHasAsid r c.asid && c.rows.all (fun w => partHasCluster r (clusterOf (4 * w))) &&
    (c.segs.flatMap segRange ++ [(c.save, 4096), (c.cnt, 4096)]).all (fun x => partHasDram r x.1 x.2) &&
    (leavesOf s.mem c).all (fun e => partHasDram r (fld e.2.1 21 18 * 2 ^ 21) (pageBytes e.2.2))

/-- Whether an APPLY would remove a resource in use, or a CLEAR would end a partition in use (R467). -/
def State.partBusy (s : State) (p : Nat) (r : Option (List W64)) : Bool :=
  match s.host.parts.find? p with
  | none => false
  | some old =>
    let ons := (List.range 64).filter (fun q => partHasQueue old q && (s.queue q).en)
    match r with
    | none => !(s.partCtxs p).isEmpty || !ons.isEmpty
    | some new =>
      (partVf old ≠ partVf new && (!(s.partCtxs p).isEmpty || !ons.isEmpty)) ||
        ons.any (fun q => !partHasQueue new q) || (s.partCtxs p).any (fun c => !s.ctxKept c new)

/-- A partition command ends, done or rejected with a code (R458, R467). -/
def State.partDone (s : State) (code : Option Nat) : State :=
  { s with host := { s.host with
      partstat := if code.isSome then 3 else 2, partcode := BitVec.ofNat 16 (code.getD 0) } }.interrupt 0 0

/-- Whether a start of the queue processor falls in this tick, and everything else of the tick has taken place (R327, R467, R469). -/
def State.startDue (s : State) : Bool :=
  s.qp.lastTick + 32 ≤ s.ticks && s.qp.ucodeAt ≤ s.ticks && s.sched.agenda.isEmpty && s.sched.turn.isEmpty

/-- Dispatches and restores that a command leads to come in the next tick: those of its own tick come before it (R467). -/
def State.dispatchLater (s : State) : State :=
  let later := fun (e : Instr) => match e with | .dispatch _ | .restore _ => true | _ => false
  (s.sched.agenda.filter later).foldl (fun (st : State) (e : Instr) => st.after_ 1 rankLast e)
    { s with sched := { s.sched with agenda := s.sched.agenda.filter (fun e => !later e) } }

/-- The effect of a partition command at a start, which it uses (R467). -/
def State.partStart (s : State) (f : State → State) : State :=
  (f { s with qp := { s.qp with lastTick := s.ticks }, host := { s.host with partWait := none } }).dispatchLater

/-- A partition command is taken unless PARTSTAT is busy; it takes effect at the first start of the queue processor, at the end of its
tick (R467, R470). -/
def State.partCommand (s : State) (own : Instr) (cmd : W64) (f : State → State) : State :=
  s.whenCool (fun s =>
    if s.host.partWait = some own then (if s.startDue then s.partStart f else s)
    else if s.host.partstat = 1 then s
    else
      let s1 := { s with host := { s.host with partcmd := cmd, partstat := 1, partcode := 0 } }
      if s.startDue then s1.partStart f else { s1 with host := { s1.host with partWait := some own } })

/-- The 16 words of STAGE. -/
def State.stageWords (s : State) : List W64 := (List.range 16).map (fun i => s.host.stage.getD i 0)

/-- A VF that a record named is unbound. -/
def State.unbind (s : State) (p : Nat) : State :=
  match s.host.parts.find? p with
  | some old => s.modVf (partVf old) (fun v => if v.bound = some p then { v with bound := none } else v)
  | none => s

/-- APPLY (R467); queues that go on running lock ACCEPT at once (R461). -/
def execApply (p : Nat) (s : State) : Host.Outcome State Fault Refusal :=
  .next (s.partCommand (.apply p) (at_ 1 0 ||| at_ (p % 32) 3) (fun s =>
    let r := s.stageWords
    if 31 < p || !partOk r then s.partDone (some 1)
    else if s.host.parts.any (fun e => e.1 != p && partsClash e.2 r) then s.partDone (some 2)
    else if s.partBusy p (some r) then s.partDone (some 3)
    else
      let s1 := s.unbind p
      (({ s1 with host := { s1.host with parts := s1.host.parts.put p r } }.modVf (partVf r) (fun v =>
        { v with bound := some p, used := (List.range 64).any (fun q => partHasQueue r q && (s.queue q).en) })).partDone none).retryDispatch))

/-- CLEAR (R467). -/
def execClear (p : Nat) (s : State) : Host.Outcome State Fault Refusal :=
  .next (s.partCommand (.clear p) (at_ 2 0 ||| at_ (p % 32) 3) (fun s =>
    if 31 < p then s.partDone (some 1)
    else if s.partBusy p none then s.partDone (some 3)
    else
      let s1 := s.unbind p
      { s1 with host := { s1.host with parts := s1.host.parts.erase p } }.partDone none))

/-- MAPOUT: a row that no context holds leaves dispatch at the start, else PARTSTAT stays busy until it is free (R470). -/
def execMapout (row : Nat) (s : State) : Host.Outcome State Fault Refusal :=
  .next (s.partCommand (.mapout row) (at_ 3 0 ||| at_ (row % 2048) 8) (fun s =>
    if Config.rows ≤ row then s.partDone (some 1)
    else if (s.row row).mappedOut then s.partDone none
    else if s.rowFree row then (s.modRow row (fun _ => { RowRec.fresh with mappedOut := true })).partDone none
    else s.modRow row (fun w => { w with mapoutReq := true })))

/-- MAPIN: the row returns to dispatch (R467, R470). -/
def execMapin (row : Nat) (s : State) : Host.Outcome State Fault Refusal :=
  .next (s.partCommand (.mapin row) (at_ 4 0 ||| at_ (row % 2048) 8) (fun s =>
    if Config.rows ≤ row then s.partDone (some 1)
    else (((s.modRow row (fun w => { w with mappedOut := false })).partDone none).tryRestores).retryDispatch))

/-- Verified microcode is loaded at a start, and starts resume within 131,072 ticks (R469). -/
def State.loadUcode (s : State) : State :=
  let d := s.draw 131073
  { d.2 with qp := { d.2.qp with ucodeAt := s.ticks + d.1 },
             host := { d.2.host with ucDigest := s.host.ucNext, ucLoads := d.2.host.ucLoads + 1 } }.partDone none

/-- UCODE: the blob is checked without a start; a good one is loaded at the next start (R464, R469). -/
def execUcode (r : ImageRead) (s : State) : Host.Outcome State Fault Refusal :=
  let i := readImage s.host.mem s.host.partarg.toNat
  let taken := s.partCommand (.ucode r) (at_ 5 0) State.loadUcode
  .next (if s.host.partWait = some (.ucode r) || s.host.partstat = 1 then taken
    else match imageFault i r Config.ucSvn with
    | some c => s.whenCool (fun s => { s with host := { s.host with
        partcmd := at_ 5 0, partstat := 3, partcode := BitVec.ofNat 16 (4 + 256 * c) } }.interrupt 0 0)
    | none => s.whenCool (fun s => { s with host := { s.host with ucNext := sha384 i.body } }.partCommand (.ucode r) (at_ 5 0) State.loadUcode))

/-- PARTCMD_RESERVED: a reserved OP is rejected with CODE 1 (R467). -/
def execPartcmdReserved (val : W64) (s : State) : Host.Outcome State Fault Refusal :=
  .next (s.partCommand (.partcmdReserved val) (val &&& 0x7FFFF) (fun s => s.partDone (some 1)))

/-! ### Contexts (R468) -/

/-- A context command ends. -/
def State.ctxDone (s : State) (vf : Nat) (code : Option Nat) : State :=
  (s.modVf vf (fun v => { v with ctxstat := if code.isSome then 3 else 2, ctxcode := BitVec.ofNat 8 (code.getD 0) })).interrupt
    (1 + vf) 0

/-- A context command is taken unless CTXSTAT is busy. -/
def State.ctxCommand (s : State) (vf : Nat) (cmd : W64) (f : State → List W64 → State) : State :=
  s.whenCool (fun s => match s.boundPart vf with
    | none => s
    | some r => if (s.vf vf).ctxstat = 1 then s else f (s.modVf vf (fun v => { v with ctxcmd := cmd })) r)

/-- The staged context of a virtual function (R316, R460, R477). -/
def VfRec.staged (v : VfRec) (vf asid : Nat) (mgmt : Bool) : Ctx :=
  { Ctx.blank with
    asid := asid, vf := vf, phase := .live, mgmt := mgmt, features := v.accept.getD 0 0,
    segs := (List.range 16).map (fun i => (v.segs.getD (2 * i) 0, v.segs.getD (2 * i + 1) 0)),
    save := fld v.save 12 27 * 4096, cnt := fld v.cnt 12 27 * 4096, tbl := fld v.tbl 12 27 * 4096, pages := fld v.pages 0 24 }

/-- CREATE: the ASID is live with the staged resources (R468). Whether a context of a domain spans packages is free (log 23). -/
def execCreate (vf asid : Nat) (mgmt : Bool) (s : State) : Host.Outcome State Fault Refusal :=
  .next (s.ctxCommand vf (at_ 1 0 ||| at_ (asid % 2 ^ 16) 2 ||| atB mgmt 18) (fun s r =>
    let c := (s.vf vf).staged vf asid mgmt
    if !partHasAsid r asid || (s.ctx? asid).isSome || c.pages < 17 ||
        !(ctxRanges c.segs c.save c.cnt c.tbl c.pages).all (fun x => partHasDram r x.1 x.2) then s.ctxDone vf (some 2)
    else
      let d := s.draw 2
      { d.2 with ctxs := d.2.ctxs.put asid { c with spans := !s.otherPeers.isEmpty && d.1 == 1 } }.ctxDone vf none))

/-- Ends a context as DESTROY does, with or without the records of its live kernels (R468, R472). -/
def State.destroyContext (s : State) (asid : Nat) (records : Bool) : State :=
  match s.ctx? asid with
  | none => s
  | some c =>
    if c.phase = .destroying then s
    else
      let s1 := { s with kernels := s.kernels.filter (fun (e : Nat × Kernel) => !(e.2.asid == asid && e.2.phase == KPhase.waiting)) }
      let s2 := if records then (s1.liveKernels asid).foldl (fun (st : State) (k : Kernel) =>
          st.errorRecord k.queue (queueRec st.ticks st.ni.peer 2 codeCancelled asid k.tag k.lid 0)) s1 else s1
      let s3 := s2.stopContext asid
      let s4 := (s3.queuesOf asid).foldl State.stopQueue s3
      let s5 := s4.modCtx asid (fun x => { x with
        phase := .destroying, rows := [], clusters := [], groups := [], faults := [], views := [], code := [], image := [],
        saved := none, stopTick := if (s.threadsOf asid).isEmpty then x.stopTick else s4.ticks })
      let s6 := match s5.ctx? asid with
        | some x => s5.tryFree asid x
        | none => s5
      (if c.phase = .saved then s6 else s6.rowsFreed c.rows).retryQueues

/-- DESTROY (R468). -/
def execDestroy (vf asid : Nat) (s : State) : Host.Outcome State Fault Refusal :=
  .next (s.ctxCommand vf (at_ 2 0 ||| at_ (asid % 2 ^ 16) 2) (fun s r =>
    if !partHasAsid r asid || (s.ctx? asid).isNone then s.ctxDone vf (some 2)
    else (s.modVf vf (fun v => { v with ctxstat := 1, ctxcode := 0 })).destroyContext asid true))

/-! ### Attestation (R465) -/

/-- A function's registers: 0 the PF, 1 + n VF n. -/
def State.fn (s : State) (n : Nat) : VfRec := if n = 0 then s.host.pf else s.vf (n - 1)
def State.modFn (s : State) (n : Nat) (f : VfRec → VfRec) : State :=
  if n = 0 then { s with host := { s.host with pf := f s.host.pf } } else s.modVf (n - 1) f

/-- Bytes of the ATT registers of a function. -/
def attBytes (v : VfRec) (o n : Nat) : List Byte := (List.range n).map (fun i => v.att.getD (o + i) 0)

/-- The bytes of a partition record. -/
def recordBytes (o : Option (List W64)) : List Byte := wordBytes ((List.range 16).map (fun i => partWord (o.getD []) i))

/-- The 48 bytes of a digest; zeros when there is none yet. -/
def digestBytes (b : List Byte) : List Byte := (b ++ List.replicate 48 0).take 48

/-- Bytes 0 to 255 of a report. -/
def State.reportBody (s : State) (fn : Nat) : List Byte :=
  let v := s.fn fn
  let recs := if fn = 0 then (List.range 32).flatMap (fun p => recordBytes (s.host.parts.find? p)) else recordBytes (s.partOf (fn - 1))
  attBytes v 0 48 ++ digestBytes s.host.fwDigest ++
    (if s.host.ucDigest.isEmpty then beBytes 48 Config.bootUcode.toNat else digestBytes s.host.ucDigest) ++
    leBytes 8 (s.host.fwSvn.toNat + fn * 2 ^ 16) ++ leBytes 8 s.ticks ++ leBytes 16 Config.serial.toNat ++
    (if fn = 0 then List.replicate 32 0 else (List.range 4).flatMap (fun i => leBytes 8 (v.accept.getD i 0).toNat)) ++
    sha384 recs

/-- The secret number of the identity key: from 1 below the order of the group (log 14). -/
def identityNumber : Nat := 1 + Config.identitySecret % (p384Order - 1)

/-- The 448 bytes of a report, signed with a number k drawn for it. -/
def State.report (s : State) (fn k : Nat) : List Byte :=
  s.reportBody fn ++ ecdsaSign identityNumber k (sha384 (s.reportBody fn)) ++ publicKey identityNumber

/-- Writes eight bytes of the ATT registers. -/
def VfRec.writeAtt (v : VfRec) (o : Nat) (val : W64) : VfRec := { v with att := hostWrite v.att o (leBytes 8 val.toNat) }

/-- ATTESTATION_REQUEST: ATT + 0x38 reads 1 until, after a free time, the signed report is written at the given bus address (R458, R465). -/
def execAttestationRequest (r : AttRequest) (s : State) : Host.Outcome State Fault Refusal :=
  let fn := r.fn
  let asked : Bool := (s.fn fn).att.getD 0x38 0 ≠ 0
  .next (s.whenUp (fun s =>
    if 0 < fn && (s.boundPart (fn - 1)).isNone then s
    else if !r.done then
      if asked then s else (s.modFn fn (fun v => v.writeAtt 0x38 1)).later 0 rankLand (.attestationRequest ⟨fn, true⟩)
    else if !asked then s
    else
      let k := s.draw (p384Order - 1)
      let a := leNat (attBytes (s.fn fn) 0x30 8)
      ({ k.2 with host := { k.2.host with mem := hostWrite k.2.host.mem a (s.report fn (1 + k.1)) } }.modFn fn
        (fun v => v.writeAtt 0x38 0)).interrupt fn 0))

/-! ### Registers (R316, R326, R442, R459 to R461) -/

/-- ACCEPT_WRITE: the offered bits written are stored, unless the partition is in use; a live context has the features that are accepted now
(R96, R461). -/
def execAcceptWrite (vf n : Nat) (val : W64) (s : State) : Host.Outcome State Fault Refusal :=
  .next (s.whenUp (fun s => match s.boundPart vf with
    | none => s
    | some r =>
      let v := s.vf vf
      let idle : Bool := (List.range 64).all (fun q => !(partHasQueue r q && (s.queue q).en)) &&
        (match v.bound with | some p => (s.partCtxs p).isEmpty | none => true)
      let offer : W64 := if n = 0 then Config.offered.zeroExtend 64 else 0
      if 3 < n || (v.used && !idle) then s
      else
        let s1 := s.modVf vf (fun v => { v with accept := v.accept.setD n (val &&& offer) 0 })
        { s1 with ctxs := s1.ctxs.map (fun (e : Nat × Ctx) =>
            (e.1, if e.2.vf = vf then { e.2 with features := (s1.vf vf).accept.getD 0 0 } else e.2)) }))

/-- A write of a PF register (R442, R459). -/
def State.writePf (s : State) (off : Nat) (val : W64) : State :=
  if off = 0x10 then { s with host := { s.host with bootImg := at_ (fld val 12 52) 12 } }
  else if off = 0x108 then { s with host := { s.host with partarg := val } }
  else if 0x3F80 ≤ off && off < 0x4000 then
    { s with host := { s.host with stage := s.host.stage.setD ((off - 0x3F80) / 8) val 0 } }
  else if off = 0x8010 then s.newDarklim (BitVec.ofNat 32 val.toNat)
  else if off = 0x8018 then
    let s1 := { s with fabric := { s.fabric with fcb := fld val 15 24 * 2 ^ 15 } }
    ([0, 64, 128, 192, 256, 320, 0x808].map (fun o => (s1.fabric.fcb + o) / 8)).foldl (fun (st : State) (c : Nat) =>
      if s1.mem.isFull c then st.commandFilled c else st) s1
  else s

/-- A write of QCTL (R326). -/
def State.writeQctl (s : State) (q : Nat) (val : W64) : State :=
  let s1 := if bit val 0 then s.enableQueue q val else (s.writeQueue q (fun r => r.setFields val)).disableQueue q
  if bit val 4 then s1.resumeQueue q (bit val 5) else s1

/-- A write of a register of a bound virtual function (R316, R326, R460). -/
def State.writeVf (s : State) (n off : Nat) (val : W64) : State :=
  if off = 0x810 then s.modVf n (fun v => { v with save := at_ (fld val 12 27) 12 })
  else if off = 0x800 then
    s.modVf n (fun v => if v.ctxstat = 1 || fld val 0 2 = 1 || fld val 0 2 = 2 then v else { v with ctxcmd := val &&& 0x7FFFF })
  else if off = 0x818 then s.modVf n (fun v => { v with cnt := at_ (fld val 12 27) 12 })
  else if off = 0x820 then s.modVf n (fun v => { v with tbl := at_ (fld val 12 27) 12 })
  else if off = 0x828 then s.modVf n (fun v => { v with pages := at_ (fld val 0 24) 0 })
  else if 0x900 ≤ off && off < 0xA00 then
    let m : W64 := if (off - 0x900) / 8 % 2 = 0 then 0x7FFFFFF007 else 0x7FFFFFF000
    s.modVf n (fun v => { v with segs := v.segs.setD ((off - 0x900) / 8) (val &&& m) 0 })
  else if 0x1000 ≤ off && off < 0x2000 then
    let q := (off - 0x1000) / 64
    if s.queueVf q ≠ some n then s
    else match (off - 0x1000) % 64 with
      | 0x00 => s.writeQueue q (fun r => { r with base := at_ (fld val 12 52) 12 })
      | 0x08 => s.writeQueue q (fun r => if 4 ≤ fld val 0 5 && fld val 0 5 ≤ 16 then { r with log := fld val 0 5 }.settled else r)
      | 0x20 => s.writeQctl q val
      | 0x38 => s.writeQueue q (fun r => { r with errBase := at_ (fld val 12 52) 12 })
      | _ => s
  else s

/-- REGISTER_WRITE: a 64-bit write of a device register that has no row of its own; other offsets ignore it (R456, R459,
R460). -/
def execRegisterWrite (fn off : Nat) (val : W64) (s : State) : Host.Outcome State Fault Refusal :=
  .next (s.whenUp (fun s =>
    if off % 8 ≠ 0 || 64 < fn || (0 < fn && (s.boundPart (fn - 1)).isNone) then s
    else if 0x300 ≤ off && off < 0x338 then s.modFn fn (fun v => v.writeAtt (off - 0x300) val)
    else if fn = 0 then s.writePf off val
    else s.writeVf (fn - 1) off val))

/-! ### What registers read (R9, R326, R442, R456, R459, R460) -/

/-- What THERM reads (R459). -/
def HostRec.therm (h : HostRec) : W64 := h.tj.zeroExtend 64 ||| atB h.warn 8 ||| atB h.trip 9

/-- A word of ROWOUT: bit r set for a row that is mapped out. -/
def State.rowoutWord (s : State) (i : Nat) : W64 :=
  (List.range 64).foldl (fun (w : W64) (b : Nat) => w ||| atB (s.row (64 * i + b)).mappedOut b) 0

/-- A register of the PF (R442, R459). -/
def State.pfWord (s : State) (off : Nat) : W64 :=
  let h := s.host
  if off = 0x0 then at_ 0x7200 0 ||| at_ Config.stepping.toNat 16
  else if off = 0x8 then at_ h.boot.toNat 0 ||| at_ h.bootCode.toNat 8
  else if off = 0x10 then h.bootImg
  else if off = 0x40 then Config.offered.zeroExtend 64
  else if off = 0x100 then h.partcmd
  else if off = 0x108 then h.partarg
  else if off = 0x110 then at_ h.partstat.toNat 0 ||| at_ h.partcode.toNat 8
  else if off = 0x400 then h.therm
  else if 0x3F80 ≤ off && off < 0x4000 then h.stage.getD ((off - 0x3F80) / 8) 0
  else if 0x4000 ≤ off && off < 0x5000 then partWord ((h.parts.find? ((off - 0x4000) / 128)).getD []) (off % 128 / 8)
  else if 0x6000 ≤ off && off < 0x6090 then s.rowoutWord ((off - 0x6000) / 8)
  else if off = 0x8000 then s.fabric.dbound.zeroExtend 64
  else if off = 0x8008 then s.fabric.lthresh.zeroExtend 64
  else if off = 0x8010 then s.fabric.darklim.zeroExtend 64
  else if off = 0x8018 then BitVec.ofNat 64 s.fabric.fcb
  else if off = 0x8020 then s.fabric.laneclr
  else 0

/-- A register of a queue (R326). -/
def QueueRec.word (r : QueueRec) (o : Nat) : W64 :=
  match o with
  | 0x00 => r.base
  | 0x08 => at_ r.log 0
  | 0x10 => at_ r.tail 0
  | 0x18 => at_ r.head 0
  | 0x20 => atB r.en 0 ||| atB r.loc 1 ||| at_ r.prio 2 ||| at_ r.ctx 16
  | 0x28 => r.qstat
  | 0x30 => r.cancel.zeroExtend 64
  | 0x38 => r.errBase
  | _ => 0

/-- A register of a virtual function: zero everywhere but for VFSTAT, itself zero, when no partition is bound (R456, R460). -/
def State.vfWord (s : State) (n off : Nat) : W64 :=
  let v := s.vf n
  match s.boundPart n, v.bound with
  | some _, some p =>
    if off = 0x0 then at_ p 0 ||| at_ 1 5
    else if 0x40 ≤ off && off < 0x60 then v.accept.getD ((off - 0x40) / 8) 0
    else if off = 0x800 then v.ctxcmd
    else if off = 0x808 then at_ v.ctxstat.toNat 0 ||| at_ v.ctxcode.toNat 8
    else if off = 0x810 then v.save
    else if off = 0x818 then v.cnt
    else if off = 0x820 then v.tbl
    else if off = 0x828 then v.pages
    else if 0x900 ≤ off && off < 0xA00 then v.segs.getD ((off - 0x900) / 8) 0
    else if 0x1000 ≤ off && off < 0x2000 && s.queueVf ((off - 0x1000) / 64) = some n then (s.queue ((off - 0x1000) / 64)).word (off % 64)
    else 0
  | _, _ => 0

/-- The word at a register offset of a function; what no register is reads zero (R9). -/
def State.regWord (s : State) (fn off : Nat) : W64 :=
  if 0x300 ≤ off && off < 0x340 && (fn = 0 || (s.boundPart (fn - 1)).isSome) then BitVec.ofNat 64 (leNat (attBytes (s.fn fn) (off - 0x300) 8))
  else if fn = 0 then s.pfWord off
  else s.vfWord (fn - 1) off

/-- A read of THERM clears WARN, and one of QSTAT clears ERRS (R326, R459). -/
def State.regSeen (s : State) (fn off : Nat) : State :=
  if fn = 0 && off = 0x400 then { s with host := { s.host with warn := false } }
  else if 0 < fn && 0x1000 ≤ off && off < 0x2000 && off % 64 = 0x28 && s.queueVf ((off - 0x1000) / 64) = some (fn - 1) then
    s.writeQueue ((off - 0x1000) / 64) (fun r => { r with errs := 0 })
  else s

/-- The 8-byte registers that a read of some bytes touches. -/
def regsRead (off size : Nat) : List Nat := (List.range ((off % 8 + size + 7) / 8)).map (fun i => 8 * (off / 8 + i))

/-! ### BAR 2 (R456, R457) -/

/-- The first byte of the FE window (R457). -/
def feWindow : Nat := 2 ^ 39

/-- Bytes of a partition's DRAM share, and its first byte. -/
def shareBytes (r : List W64) : Nat := (partDramLast r + 1 - partDramBase r) * 2 ^ 30
def shareBase (r : List W64) : Nat := partDramBase r * 2 ^ 30

/-- A byte of the FE window: eight cells. -/
def State.feByte (s : State) (cell : Nat) : Byte :=
  (List.range 8).foldl (fun (b : Byte) (i : Nat) => setBit b i (s.mem.isFull (cell + i))) 0

/-- What a read through BAR 2 or its FE window returns, and whether it is marked poisoned: an unbound function reads zero, a read beyond the
share is an unsupported request, which returns no data (R456, R457). -/
def State.shareRead (s : State) (vf o size : Nat) : List Byte × Bool :=
  match s.boundPart vf with
  | none => (List.replicate size 0, false)
  | some r =>
    let a := shareBase r + o
    if o + size ≤ shareBytes r then
      (s.mem.readN a size, (List.range size).any (fun i => s.mem.poisoned ((a + i) / 8)))
    else if feWindow ≤ o && (o - feWindow + size) * 64 ≤ shareBytes r then
      ((List.range size).map (fun i => s.feByte (shareBase r / 8 + (o - feWindow + i) * 8)), false)
    else ([], false)

/-- HOST_READ: of registers through BAR 0, or of a partition's DRAM share through BAR 2 (R456, R457, R459, R460). -/
def execHostRead (space : HostSpace) (off : W64) (size : Nat) (s : State) : Host.Outcome State Fault Refusal :=
  .next (s.whenUp (fun s =>
    let o := off.toNat
    match space with
    | .share vf => { s with host := { s.host with reads := s.host.reads ++ [s.shareRead vf o size] } }
    | .registers fn =>
      let d := (((regsRead o size).flatMap (fun r => leBytes 8 (s.regWord fn r).toNat)).drop (o % 8)).take size
      (regsRead o size).foldl (fun (st : State) (r : Nat) => st.regSeen fn r)
        { s with host := { s.host with reads := s.host.reads ++ [(d, false)] } }))

/-- HOST_WRITE: a posted write through BAR 2 leaves FE bits unchanged; through the FE window it writes them (R33, R456,
R457). -/
def execHostWrite (vf : Nat) (off : W64) (bytes : List Byte) (s : State) : Host.Outcome State Fault Refusal :=
  .next (s.whenUp (fun s =>
    let o := off.toNat
    match s.boundPart vf with
    | none => s
    | some r =>
      if o + bytes.length ≤ shareBytes r then s.setMem (s.mem.writeN (shareBase r + o) bytes)
      else if feWindow ≤ o && (o - feWindow + bytes.length) * 64 ≤ shareBytes r then
        (bytes.zip (List.range bytes.length)).foldl (fun (st : State) (p : Byte × Nat) =>
          (List.range 8).foldl (fun (st : State) (i : Nat) =>
            st.setFull (shareBase r / 8 + (o - feWindow + p.2) * 8 + i) (p.1.getLsbD i)) st) s
      else s))

/-! ### Heat (R459, R472) -/

/-- THERMAL_SAMPLE, every 65,536 ticks and at no other: 95 °C sets WARN; 105 °C sets TRIP, ends every context and stops every queue (R472). -/
def execThermalSample (tj : BitVec 8) (s : State) : Host.Outcome State Fault Refusal :=
  .next (s.whenUp (fun s =>
    if s.ticks % 65536 ≠ 0 then s else
    let s1 := { s with host := { s.host with tj := tj, tjMax := if s.host.tjMax.toNat < tj.toNat then tj else s.host.tjMax } }
    let s2 := if 95 ≤ tj.toNat then { s1 with host := { s1.host with warn := true } }.interrupt 0 0 else s1
    if 105 ≤ tj.toNat then
      let s3 := (s2.ctxs.map (·.1)).foldl (fun (st : State) (a : Nat) => st.destroyContext a false) s2
      let s4 := (s3.queues.map (·.1)).foldl (fun (st : State) (q : Nat) =>
        (st.withdrawPacket q).modQueue q (fun r => { r with en := false }.settled)) s3
      { s4 with host := { s4.host with trip := true, partWait := none } }.interrupt 0 0
    else s2))

/-- THERM_READ: WARN is returned and cleared (R459). -/
def execThermRead (s : State) : Host.Outcome State Fault Refusal :=
  .next (s.whenUp (fun s => { s with host := { s.host with
    reads := s.host.reads ++ [(leBytes 8 s.host.therm.toNat, false)], warn := false } }))

end Sys2Proof.Machine
end

