-- ==== Sys2Proof/WellFormed.lean ====
section
/-! DEFINITION. Which instructions are well formed: the conditions of R91, R92, R95 that the constructors' fields do
not already enforce. Events are well formed when their indexes lie in the package (R2, R8). -/

namespace Sys2Proof

/-- Lanes of an element size (R17, R90). -/
def ESz.lanes : ESz → Nat
  | .b => 64 | .h => 32 | .w => 16 | .d => 8

/-- A slot of the package (R8). -/
def Tid.wf (t : Tid) : Bool := t.core < Config.cores && t.slot < 64

/-- Float formats are no destination of a saturating FCVT (R92). -/
def CvtFmt.isFloat : CvtFmt → Bool
  | .w | .wu | .d | .du => false
  | .f16 | .bf16 | .f32 | .f64 => true

/-- The conditions on an instruction beyond its fields' types (R91, R92, R95). -/
def Instr.wf : Instr → Bool
  | .fcvt _ _ _ src dst sat => src != dst && !(sat && dst.isFloat)
  | .sts _ d _ mode _ => mode != .clear || d == 0
  | .vld _ v _ _ pair _ => !pair || !v.getLsbD 0
  | .vst _ v _ _ pair _ => !pair || !v.getLsbD 0
  | .vfcvt _ _ _ _ dst src => dst != src
  | .vext _ _ _ e lane => lane.toNat < e.lanes
  | .vins _ _ _ e lane => lane.toNat < e.lanes
  | .vbcasti _ _ imm t => t != .i8 || (-128 ≤ imm.toInt && imm.toInt ≤ 127)
  | .registerWriteLanding t | .divideComplete t | .fpDivSqrtComplete t | .fpexcParkEnd t | .loadResponse ⟨t, _⟩
  | .storePerformed ⟨t, _⟩ _ | .feRetry t | .heldStoreRelease t _ | .tcloseCloseInstant t | .overrun t
  | .handlerOverrun t | .storeLost t | .migrationAnswer t _ _ | .spawnPlacement t | .detAtomicAccept t
  | .scFenceComplete t => t.wf
  | .matrixStart row | .matrixComplete row | .kBlockBoundary row | .mapout row | .mapin row => row < Config.rows
  | .detAtomicApply ch => ch < Config.channels
  | .launch q | .fencePacket q | .fencePacketPass q | .signal q | .signalWrite q | .pin q | .unpin q | .viewdef q
  | .codeload q | .detlvl q | .slotplan q | .qtailWrite q _ | .qctlEnable q _ | .qctlDisable q | .qctlResume q
  | .qctlResumeSkip q | .qcancel q _ | .qstatRead q => q < 64
  | .apply p | .clear p => p < 32
  | .drain p | .relock p | .pcmdReserved p | .drainMarkerArrival p | .portDark p | .darklimExpiry p
  | .relockLock p | .relockFail p _ | .spareAttach p => p < 6
  | .flitReceive l _ | .replayResend l _ | .linkLockLoss l | .linkFail l | .spareLock l _ => l < 128
  | .lanePrecorrectionError l k _ | .laneHandback l k | .trainAttemptEnd l k _ | .laneReturn l k => l < 128 && k < 8
  | _ => true

end Sys2Proof
end

