-- ==== Sys2Proof/Decode.lean ====
section
/-! DEFINITION. Decoding of the 32-bit instruction word, total on any word (spec 03 R76 to R95), and the encoder
written from the same tables. -/

namespace Sys2Proof

/-- Why a word is not an instruction (R95). -/
inductive DecodeError where
  | illegalOpcode     -- OP 0x00, 0x3F or reserved
  | reservedFunction  -- a reserved function code
  | reservedOption    -- an option field holds a reserved value
  | nonzeroField      -- a field required to be zero is not
  | shortWord         -- fewer than four bytes were given
  deriving DecidableEq, Repr

/-! ### Field codes (R87 to R94) -/

def ExtSize.code : ExtSize → BitVec 2 | .b => 0 | .h => 1 | .w => 2
def ExtSize.ofCode (c : BitVec 2) : Option ExtSize :=
  if c = 0 then some .b else if c = 1 then some .h else if c = 2 then some .w else none

def Cond.code : Cond → BitVec 3
  | .eqz => 0 | .nez => 1 | .ltz => 2 | .gez => 3 | .gtz => 4 | .lez => 5 | .odd => 6 | .even => 7
def Cond.ofCode (c : BitVec 3) : Cond :=
  if c = 0 then .eqz else if c = 1 then .nez else if c = 2 then .ltz else if c = 3 then .gez
  else if c = 4 then .gtz else if c = 5 then .lez else if c = 6 then .odd else .even

def LdKind.code : LdKind → BitVec 3 | .b => 0 | .h => 1 | .w => 2 | .d => 3 | .bu => 4 | .hu => 5 | .wu => 6
def LdKind.ofCode (c : BitVec 3) : Option LdKind :=
  if c = 0 then some .b else if c = 1 then some .h else if c = 2 then some .w else if c = 3 then some .d
  else if c = 4 then some .bu else if c = 5 then some .hu else if c = 6 then some .wu else none

def StKind.code : StKind → BitVec 3 | .b => 0 | .h => 1 | .w => 2 | .d => 3
def StKind.ofCode (c : BitVec 3) : Option StKind :=
  if c = 0 then some .b else if c = 1 then some .h else if c = 2 then some .w else if c = 3 then some .d else none

def LdsMode.code : LdsMode → BitVec 3 | .waitfull => 0 | .take => 1 | .peek => 2
def LdsMode.ofCode (c : BitVec 3) : Option LdsMode :=
  if c = 0 then some .waitfull else if c = 1 then some .take else if c = 2 then some .peek else none

def StsMode.code : StsMode → BitVec 3 | .fill => 0 | .putempty => 1 | .clear => 2
def StsMode.ofCode (c : BitVec 3) : Option StsMode :=
  if c = 0 then some .fill else if c = 1 then some .putempty else if c = 2 then some .clear else none

def Scope.code : Scope → BitVec 3 | .core => 1 | .clu => 2 | .pkg => 3 | .dom => 4
def Scope.ofCode (c : BitVec 3) : Option Scope :=
  if c = 1 then some .core else if c = 2 then some .clu else if c = 3 then some .pkg
  else if c = 4 then some .dom else none

def FenceKind.code : FenceKind → BitVec 2 | .all => 0 | .load => 1 | .store => 2 | .sc => 3
def FenceKind.ofCode (c : BitVec 2) : FenceKind :=
  if c = 0 then .all else if c = 1 then .load else if c = 2 then .store else .sc

def CasSize.code : CasSize → BitVec 3 | .d => 0 | .w => 1
def CasSize.ofCode (c : BitVec 3) : Option CasSize := if c = 0 then some .d else if c = 1 then some .w else none

def FPrec.code : FPrec → BitVec 2 | .h => 0 | .bf => 1 | .s => 2 | .d => 3
def FPrec.ofCode (c : BitVec 2) : FPrec := if c = 0 then .h else if c = 1 then .bf else if c = 2 then .s else .d

def RoundSel.code : RoundSel → BitVec 3 | .rne => 0 | .rtz => 1 | .rdn => 2 | .rup => 3 | .rmm => 4 | .dyn => 7
def RoundSel.ofCode (c : BitVec 3) : Option RoundSel :=
  if c = 0 then some .rne else if c = 1 then some .rtz else if c = 2 then some .rdn else if c = 3 then some .rup
  else if c = 4 then some .rmm else if c = 7 then some .dyn else none

def SgnOp.code : SgnOp → BitVec 2 | .abs => 0 | .neg => 1 | .nabs => 2
def SgnOp.ofCode (c : BitVec 2) : Option SgnOp :=
  if c = 0 then some .abs else if c = 1 then some .neg else if c = 2 then some .nabs else none

def CvtFmt.code : CvtFmt → BitVec 3
  | .w => 0 | .wu => 1 | .d => 2 | .du => 3 | .f16 => 4 | .bf16 => 5 | .f32 => 6 | .f64 => 7
def CvtFmt.ofCode (c : BitVec 3) : CvtFmt :=
  if c = 0 then .w else if c = 1 then .wu else if c = 2 then .d else if c = 3 then .du
  else if c = 4 then .f16 else if c = 5 then .bf16 else if c = 6 then .f32 else .f64

def VIType.code : VIType → BitVec 2 | .i8 => 0 | .i16 => 1 | .i32 => 2 | .i64 => 3
def VIType.ofCode (c : BitVec 2) : VIType := if c = 0 then .i8 else if c = 1 then .i16 else if c = 2 then .i32 else .i64

def VFType.code : VFType → BitVec 2 | .f16 => 0 | .bf16 => 1 | .f32 => 2 | .f64 => 3
def VFType.ofCode (c : BitVec 2) : VFType :=
  if c = 0 then .f16 else if c = 1 then .bf16 else if c = 2 then .f32 else .f64

def VPType.code : VPType → BitVec 3
  | .i8 => 0 | .i16 => 1 | .i32 => 2 | .i64 => 3 | .f16 => 4 | .bf16 => 5 | .f32 => 6 | .f64 => 7
def VPType.ofCode (c : BitVec 3) : VPType :=
  if c = 0 then .i8 else if c = 1 then .i16 else if c = 2 then .i32 else if c = 3 then .i64
  else if c = 4 then .f16 else if c = 5 then .bf16 else if c = 6 then .f32 else .f64

def FPred.code : FPred → BitVec 2 | .eq => 0 | .lt => 1 | .le => 2 | .un => 3
def FPred.ofCode (c : BitVec 2) : FPred := if c = 0 then .eq else if c = 1 then .lt else if c = 2 then .le else .un

def ESz.code : ESz → BitVec 2 | .b => 0 | .h => 1 | .w => 2 | .d => 3
def ESz.ofCode (c : BitVec 2) : ESz := if c = 0 then .b else if c = 1 then .h else if c = 2 then .w else .d

def GangSize.code : GangSize → BitVec 3 | .g2 => 1 | .g4 => 2 | .g8 => 3 | .g16 => 4
def GangSize.ofCode (c : BitVec 3) : Option GangSize :=
  if c = 1 then some .g2 else if c = 2 then some .g4 else if c = 3 then some .g8
  else if c = 4 then some .g16 else none

def GangRole.code : GangRole → BitVec 1 | .lead => 0 | .follow => 1
def GangRole.ofCode (c : BitVec 1) : GangRole := if c = 0 then .lead else .follow

def boolCode (b : Bool) : BitVec 1 := if b then 1 else 0
def boolOf (c : BitVec 1) : Bool := c = 1

/-- FT and ESZ of a VBCASTI type (R91). -/
def VPType.ft : VPType → BitVec 2
  | .i8 | .i16 | .i32 | .i64 => 0
  | .f16 | .f32 | .f64 => 1
  | .bf16 => 2
def VPType.esz : VPType → BitVec 2
  | .i8 => 0 | .i16 | .f16 | .bf16 => 1 | .i32 | .f32 => 2 | .i64 | .f64 => 3
def VPType.ofFt (ft esz : BitVec 2) : Option VPType :=
  if ft = 0 then some (VPType.ofCode ((0 : BitVec 1) ++ esz))
  else if ft = 1 then
    if esz = 1 then some .f16 else if esz = 2 then some .f32 else if esz = 3 then some .f64 else none
  else if ft = 2 then (if esz = 1 then some .bf16 else none)
  else none

/-! ### The forms (R78): each word is the concatenation of its fields, most significant first -/

/-- XR form. -/
def encXR (st : Stall) (op : BitVec 6) (d a b : BitVec 7) (fn : BitVec 3) : W32 := st ++ op ++ d ++ a ++ b ++ fn
/-- XI and SY forms. -/
def encXI (st : Stall) (op : BitVec 6) (d a : BitVec 7) (imm : BitVec 10) : W32 := st ++ op ++ d ++ a ++ imm
/-- XM form. -/
def encXM (st : Stall) (op : BitVec 6) (d a : BitVec 7) (k : BitVec 3) (off : BitVec 7) : W32 := st ++ op ++ d ++ a ++ k ++ off
/-- LI and JL forms. -/
def encLI (st : Stall) (op : BitVec 6) (d : BitVec 7) (imm : BitVec 17) : W32 := st ++ op ++ d ++ imm
/-- BR form. -/
def encBR (st : Stall) (op : BitVec 6) (c : BitVec 3) (a : BitVec 7) (off : BitVec 14) : W32 := st ++ op ++ c ++ a ++ off
/-- VR form. -/
def encVR (st : Stall) (op : BitVec 6) (d a b : BitVec 5) (m : BitVec 3) (fn : BitVec 6) : W32 :=
  st ++ op ++ d ++ a ++ b ++ m ++ fn
/-- VS form. -/
def encVS (st : Stall) (op : BitVec 6) (d a b : BitVec 5) (x : BitVec 7) (fn : BitVec 2) : W32 :=
  st ++ op ++ d ++ a ++ b ++ x ++ fn
/-- VM form. -/
def encVM (st : Stall) (op : BitVec 6) (v : BitVec 5) (a : BitVec 7) (m k : BitVec 3) (off : BitVec 6) : W32 :=
  st ++ op ++ v ++ a ++ m ++ k ++ off
/-- VG form. -/
def encVG (st : Stall) (op : BitVec 6) (v b : BitVec 5) (a : BitVec 7) (m : BitVec 3) (e sc : BitVec 2) : W32 :=
  st ++ op ++ v ++ b ++ a ++ m ++ e ++ sc
/-- VX form. -/
def encVX (st : Stall) (op : BitVec 6) (v : BitVec 5) (x : BitVec 7) (e : BitVec 2) (lane : BitVec 6) (fn ft : BitVec 2) : W32 :=
  st ++ op ++ v ++ x ++ e ++ lane ++ fn ++ ft

/-- Bits lo and up of a word, n of them. -/
abbrev field (w : W32) (lo n : Nat) : BitVec n := w.extractLsb' lo n

/-- The answer of a sub-decoder. -/
abbrev Dec := Except DecodeError Instr

/-- Requires the named bits to be zero (R95). -/
def needZero {n : Nat} (f : BitVec n) (i : Instr) : Dec := if f = 0 then .ok i else .error .nonzeroField
/-- Takes an option's value or reports the reserved code (R95). -/
def needOpt {α : Type} (o : Option α) (f : α → Dec) : Dec :=
  match o with
  | some v => f v
  | none => .error .reservedOption
/-- Requires a condition on an option value (R91, R92). -/
def needCond (c : Bool) (i : Instr) : Dec := if c then .ok i else .error .reservedOption

def decIalu (st : Stall) (d a b : XReg) (fn : BitVec 3) : Dec :=
  if fn = 0 then .ok (.add st d a b) else if fn = 1 then .ok (.sub st d a b) else if fn = 2 then .ok (.and st d a b)
  else if fn = 3 then .ok (.or st d a b) else if fn = 4 then .ok (.xor st d a b) else if fn = 5 then .ok (.sll st d a b)
  else if fn = 6 then .ok (.srl st d a b) else .ok (.sra st d a b)

def decImul (st : Stall) (d a b : XReg) (fn : BitVec 3) : Dec :=
  if fn = 0 then .ok (.mul st d a b) else if fn = 1 then .ok (.mulh st d a b) else if fn = 2 then .ok (.mulhu st d a b)
  else if fn = 3 then .ok (.div st d a b) else if fn = 4 then .ok (.divu st d a b) else if fn = 5 then .ok (.rem st d a b)
  else if fn = 6 then .ok (.remu st d a b) else .error .reservedFunction

def decIcmp (st : Stall) (d a b : XReg) (fn : BitVec 3) : Dec :=
  if fn = 0 then .ok (.slt st d a b) else if fn = 1 then .ok (.sltu st d a b) else if fn = 2 then .ok (.min st d a b)
  else if fn = 3 then .ok (.max st d a b) else .error .reservedFunction

/-- The size option in XB of SEXT and ZEXT (R93). -/
def decExt (b : XReg) (f : ExtSize → Instr) : Dec :=
  if b.extractLsb' 2 5 = (0 : BitVec 5) then needOpt (ExtSize.ofCode (b.extractLsb' 0 2)) (fun z => .ok (f z))
  else .error .nonzeroField

def decIbit (st : Stall) (d a b : XReg) (fn : BitVec 3) : Dec :=
  if fn = 0 then needZero b (.clz st d a) else if fn = 1 then needZero b (.ctz st d a)
  else if fn = 2 then needZero b (.popc st d a) else if fn = 3 then decExt b (.sext st d a)
  else if fn = 4 then decExt b (.zext st d a) else if fn = 5 then .ok (.andn st d a b)
  else if fn = 6 then .ok (.cmov st d a b) else .error .reservedFunction

def decFps (st : Stall) (d a b : XReg) (fn : BitVec 3) : Dec :=
  if fn = 0 then .ok (.faddS st d a b) else if fn = 1 then .ok (.fsubS st d a b) else if fn = 2 then .ok (.fmulS st d a b)
  else if fn = 3 then .ok (.fdivS st d a b) else if fn = 4 then needZero b (.fsqrtS st d a)
  else if fn = 5 then .ok (.fminS st d a b) else if fn = 6 then .ok (.fmaxS st d a b) else .ok (.fmaS st d a b)

def decFpd (st : Stall) (d a b : XReg) (fn : BitVec 3) : Dec :=
  if fn = 0 then .ok (.faddD st d a b) else if fn = 1 then .ok (.fsubD st d a b) else if fn = 2 then .ok (.fmulD st d a b)
  else if fn = 3 then .ok (.fdivD st d a b) else if fn = 4 then needZero b (.fsqrtD st d a)
  else if fn = 5 then .ok (.fminD st d a b) else if fn = 6 then .ok (.fmaxD st d a b) else .ok (.fmaD st d a b)

def decFpc (st : Stall) (d a b : XReg) (fn : BitVec 3) : Dec :=
  if fn = 0 then .ok (.fcmpS st d a b) else if fn = 1 then .ok (.fcmpeS st d a b) else if fn = 2 then .ok (.fcmpD st d a b)
  else if fn = 3 then .ok (.fcmpeD st d a b)
  else if fn = 4 then
    if b.extractLsb' 2 5 = (0 : BitVec 5) then .ok (.fclass st d a (FPrec.ofCode (b.extractLsb' 0 2))) else .error .nonzeroField
  else if fn = 5 then
    let i := Instr.fcvt st d a (CvtFmt.ofCode (b.extractLsb' 4 3)) (CvtFmt.ofCode (b.extractLsb' 1 3)) (boolOf (b.extractLsb' 0 1))
    needCond i.wf i
  else if fn = 6 then
    if b.extractLsb' 5 2 = (0 : BitVec 2) then
      needOpt (RoundSel.ofCode (b.extractLsb' 2 3)) fun r => .ok (.fround st d a r (FPrec.ofCode (b.extractLsb' 0 2)))
    else .error .nonzeroField
  else
    if b.extractLsb' 4 3 = (0 : BitVec 3) then
      needOpt (SgnOp.ofCode (b.extractLsb' 2 2)) fun o => .ok (.fsgn st d a o (FPrec.ofCode (b.extractLsb' 0 2)))
    else .error .nonzeroField

def decAmo (st : Stall) (d a b : XReg) (fn : BitVec 3) : Dec :=
  if fn = 0 then .ok (.amoAdd st d a b) else if fn = 1 then .ok (.amoAnd st d a b) else if fn = 2 then .ok (.amoOr st d a b)
  else if fn = 3 then .ok (.amoXor st d a b) else if fn = 4 then .ok (.amoMin st d a b) else if fn = 5 then .ok (.amoMax st d a b)
  else if fn = 6 then .ok (.amoSwap st d a b) else .ok (.amoFadd st d a b)

/-- FENCE (R89). -/
def decFence (st : Stall) (d a : XReg) (n : BitVec 10) : Dec :=
  if d = 0 ∧ a = 0 ∧ n.extractLsb' 8 2 = (0 : BitVec 2) then
    needOpt (Scope.ofCode (n.extractLsb' 0 3)) fun s =>
      .ok (.fence st (FenceKind.ofCode (n.extractLsb' 3 2)) s (boolOf (n.extractLsb' 5 1)) (boolOf (n.extractLsb' 6 1)) (boolOf (n.extractLsb' 7 1)))
  else .error .nonzeroField

/-- K and the even register of a pair (R88, R95). -/
def decVm (v : VReg) (k : BitVec 3) (f : Bool → Instr) : Dec :=
  if k = 0 then .ok (f false) else if k = 1 then needCond (!v.getLsbD 0) (f true) else .error .reservedOption

def decVint (st : Stall) (d a b : VReg) (m : MReg) (fn : BitVec 6) : Dec :=
  let t := VIType.ofCode (fn.extractLsb' 0 2)
  let o : BitVec 4 := fn.extractLsb' 2 4
  if o = 0 then .ok (.vadd st d a b m t) else if o = 1 then .ok (.vsub st d a b m t) else if o = 2 then .ok (.vmul st d a b m t)
  else if o = 3 then .ok (.vmin st d a b m t) else if o = 4 then .ok (.vmax st d a b m t) else if o = 5 then .ok (.vand st d a b m t)
  else if o = 6 then .ok (.vor st d a b m t) else if o = 7 then .ok (.vxor st d a b m t) else if o = 8 then .ok (.vsll st d a b m t)
  else if o = 9 then .ok (.vsrl st d a b m t) else if o = 10 then .ok (.vsra st d a b m t) else .error .reservedFunction

def decVfp (st : Stall) (d a b : VReg) (m : MReg) (fn : BitVec 6) : Dec :=
  let t := VFType.ofCode (fn.extractLsb' 0 2)
  let o : BitVec 4 := fn.extractLsb' 2 4
  if o = 0 then .ok (.vfadd st d a b m t) else if o = 1 then .ok (.vfsub st d a b m t) else if o = 2 then .ok (.vfmul st d a b m t)
  else if o = 3 then .ok (.vfma st d a b m t) else if o = 4 then .ok (.vfmin st d a b m t) else if o = 5 then .ok (.vfmax st d a b m t)
  else if o = 6 then .ok (.vfcmp st (d.extractLsb' 0 3) (FPred.ofCode (d.extractLsb' 3 2)) a b m t)
  else if o = 7 then
    if b.extractLsb' 2 3 = (0 : BitVec 3) then
      let i := Instr.vfcvt st d a m t (VFType.ofCode (b.extractLsb' 0 2))
      needCond i.wf i
    else .error .nonzeroField
  else .error .reservedFunction

def decVperm (st : Stall) (d a b : VReg) (m : MReg) (fn : BitVec 6) : Dec :=
  let t := VPType.ofCode (fn.extractLsb' 0 3)
  let o : BitVec 3 := fn.extractLsb' 3 3
  if o = 0 then .ok (.vshuf st d a b m t) else if o = 1 then needZero b (.vredadd st d a m t)
  else if o = 2 then needZero b (.vredmax st d a m t) else if o = 3 then .ok (.vmerge st d a b m t)
  else if o = 4 then
    if d.extractLsb' 3 2 = (0 : BitVec 2) ∧ b = 0 then .ok (.vmask st (d.extractLsb' 0 3) a m t) else .error .nonzeroField
  else .error .reservedFunction

def decVxs (st : Stall) (v : VReg) (x : XReg) (e : BitVec 2) (lane : BitVec 6) (fn ft : BitVec 2) : Dec :=
  if fn = 0 then (if lane = 0 ∧ ft = 0 then .ok (.vbcast st v x (ESz.ofCode e)) else .error .nonzeroField)
  else if fn = 1 then
    if ft = 0 then needCond (Instr.vext st x v (ESz.ofCode e) lane).wf (.vext st x v (ESz.ofCode e) lane) else .error .nonzeroField
  else if fn = 2 then
    if ft = 0 then needCond (Instr.vins st v x (ESz.ofCode e) lane).wf (.vins st v x (ESz.ofCode e) lane) else .error .nonzeroField
  else needOpt (VPType.ofFt ft e) fun t => needCond (Instr.vbcasti st v (x ++ lane) t).wf (.vbcasti st v (x ++ lane) t)

def decMx (st : Stall) (a b c : XReg) (fn : BitVec 3) : Dec :=
  if fn = 0 then .ok (.mxmac st a b c) else if fn = 1 then .ok (.mxmul st a b c) else if fn = 2 then needZero c (.mxdrain st a b)
  else if fn = 3 then needZero (b ++ c) (.mxzero st a) else if fn = 4 then needZero c (.acld st a b)
  else if fn = 5 then needZero c (.acst st a b) else if fn = 6 then needZero (b ++ c) (.mxcfg st a)
  else needZero c (.mxscl st a b)

/-- FMTSET and FMTGET (R94). -/
def decFmt (st : Stall) (d a : XReg) (n : BitVec 10) : Dec :=
  if n.extractLsb' 4 6 = (0 : BitVec 6) then
    if n.extractLsb' 0 1 = (0 : BitVec 1) then needZero d (.fmtset st (n.extractLsb' 1 3) a)
    else needZero a (.fmtget st d (n.extractLsb' 1 3))
  else .error .nonzeroField

def decMsg (st : Stall) (d a b : XReg) (fn : BitVec 3) : Dec :=
  if fn = 0 then needZero (d ++ b) (.send st a) else if fn = 1 then needZero (d ++ b) (.recv st a)
  else if fn = 2 then needZero b (.probe st d a) else if fn = 3 then needZero d (.mbwait st a b)
  else if fn = 4 then needZero (d ++ b) (.mcast st a) else .error .reservedFunction

def decCpy (st : Stall) (d a b : XReg) (fn : BitVec 3) : Dec :=
  if fn = 0 then needZero (d ++ b) (.copy st a) else if fn = 1 then .ok (.cwait st d a b)
  else if fn = 2 then needZero d (.cmap st a b) else .error .reservedFunction

def decThr (st : Stall) (d a b : XReg) (fn : BitVec 3) : Dec :=
  if fn = 0 then needZero b (.spawn st d a) else if fn = 1 then needZero (d ++ a ++ b) (.exit st)
  else if fn = 2 then needZero (d ++ b) (.join st a) else if fn = 3 then needZero (d ++ b) (.leave st a)
  else if fn = 4 then needZero (d ++ (b.extractLsb' 1 6 : BitVec 6)) (.gbar st a (boolOf (b.extractLsb' 0 1)))
  else if fn = 5 then
    if d = 0 ∧ a = 0 ∧ b.extractLsb' 4 3 = (0 : BitVec 3) then
      needOpt (GangSize.ofCode (b.extractLsb' 1 3)) fun z => .ok (.gang st z (GangRole.ofCode (b.extractLsb' 0 1)))
    else .error .nonzeroField
  else if fn = 6 then needZero (d ++ b) (.split st a) else needZero (d ++ b) (.vtadv st a)

def decTrg (st : Stall) (d a b : XReg) (fn : BitVec 3) : Dec :=
  if fn = 0 then .ok (.topen st d a b) else if fn = 1 then needZero (a ++ b) (.tclose st d) else .error .reservedFunction

/-- The opcode map (R82) over the forms of R78: every word decodes to its instruction or is rejected by name. -/
def decode (w : W32) : Dec :=
  let st : Stall := field w 30 2
  let d : XReg := field w 17 7
  let a : XReg := field w 10 7
  let b : XReg := field w 3 7
  let fn : BitVec 3 := field w 0 3
  let n : BitVec 10 := field w 0 10
  let k : BitVec 3 := field w 7 3
  let o7 : BitVec 7 := field w 0 7
  let vd : VReg := field w 19 5
  let va : VReg := field w 14 5
  let vb : VReg := field w 9 5
  let mk : MReg := field w 6 3
  let fn6 : BitVec 6 := field w 0 6
  match (field w 24 6).toNat with
  | 0x01 => decIalu st d a b fn
  | 0x02 => decImul st d a b fn
  | 0x03 => decIcmp st d a b fn
  | 0x04 => decIbit st d a b fn
  | 0x05 => .ok (.addi st d a n)
  | 0x06 => .ok (.andi st d a n)
  | 0x07 => .ok (.ori st d a n)
  | 0x08 => needZero (field w 6 4) (.slli st d a fn6)
  | 0x09 => needZero (field w 6 4) (.srli st d a fn6)
  | 0x0A => needZero (field w 6 4) (.srai st d a fn6)
  | 0x0B => .ok (.li st d (field w 0 17))
  | 0x0C => needZero (field w 16 1) (.lim st d (field w 0 16))
  | 0x10 => .ok (.b st (Cond.ofCode (field w 21 3)) (field w 14 7) (field w 0 14))
  | 0x11 => needZero (field w 21 3) (.dbnz st (field w 14 7) (field w 0 14))
  | 0x12 => .ok (.j st d (field w 0 17))
  | 0x13 => .ok (.jr st d a n)
  | 0x14 => decFps st d a b fn
  | 0x15 => decFpd st d a b fn
  | 0x16 => decFpc st d a b fn
  | 0x18 => needOpt (LdKind.ofCode k) fun z => .ok (.ld st d a z o7)
  | 0x19 => needOpt (StKind.ofCode k) fun z => .ok (.st st d a z o7)
  | 0x1A => needOpt (LdsMode.ofCode k) fun z => .ok (.lds st d a z o7)
  | 0x1B => needOpt (StsMode.ofCode k) fun z =>
      if (Instr.sts st d a z o7).wf then .ok (.sts st d a z o7) else .error .nonzeroField
  | 0x1C => decAmo st d a b fn
  | 0x1D => needOpt (CasSize.ofCode fn) fun z => .ok (.cas st d a b z)
  | 0x1E => needOpt (Scope.ofCode k) fun z => .ok (.ldaq st d a z o7)
  | 0x1F => needOpt (Scope.ofCode k) fun z => .ok (.strl st d a z o7)
  | 0x20 => decFence st d a n
  | 0x21 => decVm vd mk fun p => .vld st vd (field w 12 7) (field w 9 3) p fn6
  | 0x22 => decVm vd mk fun p => .vst st vd (field w 12 7) (field w 9 3) p fn6
  | 0x23 => .ok (.vldx st vd va (field w 7 7) (field w 4 3) (ESz.ofCode (field w 2 2)) (ESz.ofCode (field w 0 2)))
  | 0x24 => .ok (.vstx st vd va (field w 7 7) (field w 4 3) (ESz.ofCode (field w 2 2)) (ESz.ofCode (field w 0 2)))
  | 0x25 => decVint st vd va vb mk fn6
  | 0x26 => decVfp st vd va vb mk fn6
  | 0x27 => decVperm st vd va vb mk fn6
  | 0x28 => decVxs st vd (field w 12 7) (field w 10 2) (field w 4 6) (field w 2 2) (field w 0 2)
  | 0x29 =>
      if field w 0 2 = (0 : BitVec 2) then .ok (.vsdot st vd va vb (field w 2 7))
      else if field w 0 2 = (1 : BitVec 2) then needZero vb (.vscvt st vd va (field w 2 7))
      else .error .reservedFunction
  | 0x2A => decMx st d a b fn
  | 0x2B => decFmt st d a n
  | 0x2C => decMsg st d a b fn
  | 0x2D => decCpy st d a b fn
  | 0x2E => decThr st d a b fn
  | 0x2F => decTrg st d a b fn
  | 0x30 => needZero a (.csrr st d n)
  | 0x31 => .ok (.csrw st d a n)
  | 0x32 => needZero (d ++ a) (.trap st n)
  | 0x33 => needZero (d ++ a ++ n) (.tret st)
  | _ => .error .illegalOpcode

/-- A word's four bytes, least significant first (R7, R76). -/
def bytesOfWord (w : W32) : List Byte := [w.extractLsb' 0 8, w.extractLsb' 8 8, w.extractLsb' 16 8, w.extractLsb' 24 8]

/-- The word that four bytes hold (R76). -/
def wordOfBytes (b0 b1 b2 b3 : Byte) : W32 := b3 ++ b2 ++ b1 ++ b0

/-- Decodes the instruction at the head of a list of bytes, and returns the rest. -/
def decodeBytes : List Byte → Except DecodeError (Instr × List Byte)
  | b0 :: b1 :: b2 :: b3 :: rest =>
    match decode (wordOfBytes b0 b1 b2 b3) with
    | .ok i => .ok (i, rest)
    | .error e => .error e
  | _ => .error .shortWord

/-- The bytes that a table word of nbits bits stands for: bit 0 the least significant bit of the first byte. -/
def tableBytes (nbits w : Nat) : List Byte := bytesOfWord (BitVec.ofNat 32 (w % 2 ^ nbits))

/-- The instruction this decoder reads from a table word. -/
def decodeTableWord (nbits w : Nat) : Option Instr :=
  match decodeBytes (tableBytes nbits w) with
  | .ok (i, _) => some i
  | .error _ => none

/-- VR words of VINT: operation and type (R160). -/
def encVint (st : Stall) (d a b : VReg) (m : MReg) (o : BitVec 4) (t : VIType) : W32 := encVR st 0x25 d a b m (o ++ t.code)
def encVfp (st : Stall) (d a b : VReg) (m : MReg) (o : BitVec 4) (t : VFType) : W32 := encVR st 0x26 d a b m (o ++ t.code)
def encVperm (st : Stall) (d a b : VReg) (m : MReg) (o : BitVec 3) (t : VPType) : W32 := encVR st 0x27 d a b m (o ++ t.code)

/-- The word of an instruction (R83 to R94); events have none. -/
def encode : Instr → Option W32
  | .add st d a b => some (encXR st 0x01 d a b 0)
  | .sub st d a b => some (encXR st 0x01 d a b 1)
  | .and st d a b => some (encXR st 0x01 d a b 2)
  | .or st d a b => some (encXR st 0x01 d a b 3)
  | .xor st d a b => some (encXR st 0x01 d a b 4)
  | .sll st d a b => some (encXR st 0x01 d a b 5)
  | .srl st d a b => some (encXR st 0x01 d a b 6)
  | .sra st d a b => some (encXR st 0x01 d a b 7)
  | .mul st d a b => some (encXR st 0x02 d a b 0)
  | .mulh st d a b => some (encXR st 0x02 d a b 1)
  | .mulhu st d a b => some (encXR st 0x02 d a b 2)
  | .div st d a b => some (encXR st 0x02 d a b 3)
  | .divu st d a b => some (encXR st 0x02 d a b 4)
  | .rem st d a b => some (encXR st 0x02 d a b 5)
  | .remu st d a b => some (encXR st 0x02 d a b 6)
  | .slt st d a b => some (encXR st 0x03 d a b 0)
  | .sltu st d a b => some (encXR st 0x03 d a b 1)
  | .min st d a b => some (encXR st 0x03 d a b 2)
  | .max st d a b => some (encXR st 0x03 d a b 3)
  | .clz st d a => some (encXR st 0x04 d a 0 0)
  | .ctz st d a => some (encXR st 0x04 d a 0 1)
  | .popc st d a => some (encXR st 0x04 d a 0 2)
  | .sext st d a z => some (encXR st 0x04 d a ((0 : BitVec 5) ++ z.code) 3)
  | .zext st d a z => some (encXR st 0x04 d a ((0 : BitVec 5) ++ z.code) 4)
  | .andn st d a b => some (encXR st 0x04 d a b 5)
  | .cmov st d a b => some (encXR st 0x04 d a b 6)
  | .addi st d a imm => some (encXI st 0x05 d a imm)
  | .andi st d a imm => some (encXI st 0x06 d a imm)
  | .ori st d a imm => some (encXI st 0x07 d a imm)
  | .slli st d a sh => some (encXI st 0x08 d a ((0 : BitVec 4) ++ sh))
  | .srli st d a sh => some (encXI st 0x09 d a ((0 : BitVec 4) ++ sh))
  | .srai st d a sh => some (encXI st 0x0A d a ((0 : BitVec 4) ++ sh))
  | .li st d imm => some (encLI st 0x0B d imm)
  | .lim st d imm => some (encLI st 0x0C d ((0 : BitVec 1) ++ imm))
  | .b st c a off => some (encBR st 0x10 c.code a off)
  | .dbnz st a off => some (encBR st 0x11 0 a off)
  | .j st d off => some (encLI st 0x12 d off)
  | .jr st d a imm => some (encXI st 0x13 d a imm)
  | .faddS st d a b => some (encXR st 0x14 d a b 0)
  | .fsubS st d a b => some (encXR st 0x14 d a b 1)
  | .fmulS st d a b => some (encXR st 0x14 d a b 2)
  | .fdivS st d a b => some (encXR st 0x14 d a b 3)
  | .fsqrtS st d a => some (encXR st 0x14 d a 0 4)
  | .fminS st d a b => some (encXR st 0x14 d a b 5)
  | .fmaxS st d a b => some (encXR st 0x14 d a b 6)
  | .fmaS st d a b => some (encXR st 0x14 d a b 7)
  | .faddD st d a b => some (encXR st 0x15 d a b 0)
  | .fsubD st d a b => some (encXR st 0x15 d a b 1)
  | .fmulD st d a b => some (encXR st 0x15 d a b 2)
  | .fdivD st d a b => some (encXR st 0x15 d a b 3)
  | .fsqrtD st d a => some (encXR st 0x15 d a 0 4)
  | .fminD st d a b => some (encXR st 0x15 d a b 5)
  | .fmaxD st d a b => some (encXR st 0x15 d a b 6)
  | .fmaD st d a b => some (encXR st 0x15 d a b 7)
  | .fcmpS st d a b => some (encXR st 0x16 d a b 0)
  | .fcmpeS st d a b => some (encXR st 0x16 d a b 1)
  | .fcmpD st d a b => some (encXR st 0x16 d a b 2)
  | .fcmpeD st d a b => some (encXR st 0x16 d a b 3)
  | .fclass st d a p => some (encXR st 0x16 d a ((0 : BitVec 5) ++ p.code) 4)
  | .fcvt st d a src dst sat => some (encXR st 0x16 d a (src.code ++ dst.code ++ boolCode sat) 5)
  | .fround st d a rm p => some (encXR st 0x16 d a ((0 : BitVec 2) ++ rm.code ++ p.code) 6)
  | .fsgn st d a op p => some (encXR st 0x16 d a ((0 : BitVec 3) ++ op.code ++ p.code) 7)
  | .ld st d a k off => some (encXM st 0x18 d a k.code off)
  | .st st d a k off => some (encXM st 0x19 d a k.code off)
  | .lds st d a mode off => some (encXM st 0x1A d a mode.code off)
  | .sts st d a mode off => some (encXM st 0x1B d a mode.code off)
  | .amoAdd st d a b => some (encXR st 0x1C d a b 0)
  | .amoAnd st d a b => some (encXR st 0x1C d a b 1)
  | .amoOr st d a b => some (encXR st 0x1C d a b 2)
  | .amoXor st d a b => some (encXR st 0x1C d a b 3)
  | .amoMin st d a b => some (encXR st 0x1C d a b 4)
  | .amoMax st d a b => some (encXR st 0x1C d a b 5)
  | .amoSwap st d a b => some (encXR st 0x1C d a b 6)
  | .amoFadd st d a b => some (encXR st 0x1C d a b 7)
  | .cas st d a b z => some (encXR st 0x1D d a b z.code)
  | .ldaq st d a scope off => some (encXM st 0x1E d a scope.code off)
  | .strl st d a scope off => some (encXM st 0x1F d a scope.code off)
  | .fence st kind scope cpy msg mx =>
      some (encXI st 0x20 0 0 ((0 : BitVec 2) ++ boolCode mx ++ boolCode msg ++ boolCode cpy ++ kind.code ++ scope.code))
  | .vld st v a m pair off => some (encVM st 0x21 v a m ((0 : BitVec 2) ++ boolCode pair) off)
  | .vst st v a m pair off => some (encVM st 0x22 v a m ((0 : BitVec 2) ++ boolCode pair) off)
  | .vldx st v b a m e sc => some (encVG st 0x23 v b a m e.code sc.code)
  | .vstx st v b a m e sc => some (encVG st 0x24 v b a m e.code sc.code)
  | .vadd st d a b m t => some (encVint st d a b m 0 t)
  | .vsub st d a b m t => some (encVint st d a b m 1 t)
  | .vmul st d a b m t => some (encVint st d a b m 2 t)
  | .vmin st d a b m t => some (encVint st d a b m 3 t)
  | .vmax st d a b m t => some (encVint st d a b m 4 t)
  | .vand st d a b m t => some (encVint st d a b m 5 t)
  | .vor st d a b m t => some (encVint st d a b m 6 t)
  | .vxor st d a b m t => some (encVint st d a b m 7 t)
  | .vsll st d a b m t => some (encVint st d a b m 8 t)
  | .vsrl st d a b m t => some (encVint st d a b m 9 t)
  | .vsra st d a b m t => some (encVint st d a b m 10 t)
  | .vfadd st d a b m t => some (encVfp st d a b m 0 t)
  | .vfsub st d a b m t => some (encVfp st d a b m 1 t)
  | .vfmul st d a b m t => some (encVfp st d a b m 2 t)
  | .vfma st d a b m t => some (encVfp st d a b m 3 t)
  | .vfmin st d a b m t => some (encVfp st d a b m 4 t)
  | .vfmax st d a b m t => some (encVfp st d a b m 5 t)
  | .vfcmp st g p a b m t => some (encVfp st (p.code ++ g) a b m 6 t)
  | .vfcvt st d a m dst src => some (encVfp st d a ((0 : BitVec 3) ++ src.code) m 7 dst)
  | .vshuf st d a b m t => some (encVperm st d a b m 0 t)
  | .vredadd st d a m t => some (encVperm st d a 0 m 1 t)
  | .vredmax st d a m t => some (encVperm st d a 0 m 2 t)
  | .vmerge st d a b m t => some (encVperm st d a b m 3 t)
  | .vmask st g a m t => some (encVperm st ((0 : BitVec 2) ++ g) a 0 m 4 t)
  | .vbcast st d x e => some (encVX st 0x28 d x e.code 0 0 0)
  | .vext st x a e lane => some (encVX st 0x28 a x e.code lane 1 0)
  | .vins st d x e lane => some (encVX st 0x28 d x e.code lane 2 0)
  | .vbcasti st d imm t => some (encVX st 0x28 d (imm.extractLsb' 6 7) t.esz (imm.extractLsb' 0 6) 3 t.ft)
  | .vsdot st d a b x => some (encVS st 0x29 d a b x 0)
  | .vscvt st d a x => some (encVS st 0x29 d a 0 x 1)
  | .mxmac st a b c => some (encXR st 0x2A a b c 0)
  | .mxmul st a b c => some (encXR st 0x2A a b c 1)
  | .mxdrain st a b => some (encXR st 0x2A a b 0 2)
  | .mxzero st a => some (encXR st 0x2A a 0 0 3)
  | .acld st a b => some (encXR st 0x2A a b 0 4)
  | .acst st a b => some (encXR st 0x2A a b 0 5)
  | .mxcfg st a => some (encXR st 0x2A a 0 0 6)
  | .mxscl st a b => some (encXR st 0x2A a b 0 7)
  | .fmtset st n a => some (encXI st 0x2B 0 a ((0 : BitVec 6) ++ n ++ (0 : BitVec 1)))
  | .fmtget st d n => some (encXI st 0x2B d 0 ((0 : BitVec 6) ++ n ++ (1 : BitVec 1)))
  | .send st a => some (encXR st 0x2C 0 a 0 0)
  | .recv st a => some (encXR st 0x2C 0 a 0 1)
  | .probe st d a => some (encXR st 0x2C d a 0 2)
  | .mbwait st a b => some (encXR st 0x2C 0 a b 3)
  | .mcast st a => some (encXR st 0x2C 0 a 0 4)
  | .copy st a => some (encXR st 0x2D 0 a 0 0)
  | .cwait st d a b => some (encXR st 0x2D d a b 1)
  | .cmap st a b => some (encXR st 0x2D 0 a b 2)
  | .spawn st d a => some (encXR st 0x2E d a 0 0)
  | .exit st => some (encXR st 0x2E 0 0 0 1)
  | .join st a => some (encXR st 0x2E 0 a 0 2)
  | .leave st a => some (encXR st 0x2E 0 a 0 3)
  | .gbar st a tide => some (encXR st 0x2E 0 a ((0 : BitVec 6) ++ boolCode tide) 4)
  | .gang st size role => some (encXR st 0x2E 0 0 ((0 : BitVec 3) ++ size.code ++ role.code) 5)
  | .split st a => some (encXR st 0x2E 0 a 0 6)
  | .vtadv st a => some (encXR st 0x2E 0 a 0 7)
  | .topen st d a b => some (encXR st 0x2F d a b 0)
  | .tclose st d => some (encXR st 0x2F d 0 0 1)
  | .csrr st d n => some (encXI st 0x30 d 0 n)
  | .csrw st d a n => some (encXI st 0x31 d a n)
  | .trap st code => some (encXI st 0x32 0 0 code)
  | .tret st => some (encXI st 0x33 0 0 0)
  | _ => none

end Sys2Proof
end

