-- ==== Sys2Proof/Machine/Wheel.lean ====
section
/-! DEFINITION. The issue wheel, fetching, forwarding in a gang, and the advance of TICKS (spec 08 R209; 14 R307;
15 R339; 16 R349). -/

namespace Sys2Proof.Machine

/-! ### Which thread issues (R339) -/

/-- Whether a context lets a thread issue: it is live, or stopping with a region of the thread open, or with forwarded words
that a follower has still to issue (R220, R354). -/
def State.ctxRuns (s : State) (th : Thread) : Bool :=
  match s.ctx? th.asid with
  | none => false
  | some c => match c.phase with
    | .live => true
    | .stopping => 0 < th.depth || (match th.gang with | .follower _ _ (_ :: _) => true | _ => false)
    | _ => false

/-- Whether an instruction may park the thread; fp says whether an enable of FCSR may be set when it issues (R100, R102, R124, R173, R195, R199, R229, R261, R276). -/
def mayPark (s : State) (th : Thread) (queued : Nat) (fp : Bool) (i : Instr) : Bool :=
  match i with
  | .div .. | .divu .. | .rem .. | .remu .. | .fdivS .. | .fdivD .. | .fsqrtS .. | .fsqrtD .. | .ld .. | .lds ..
  | .amoAdd .. | .amoAnd .. | .amoOr .. | .amoXor .. | .amoMin .. | .amoMax .. | .amoSwap .. | .amoFadd .. | .cas ..
  | .ldaq .. | .fence .. | .vld .. | .vldx .. | .mxmac .. | .mxmul .. | .mxdrain .. | .mxzero .. | .acld .. | .acst ..
  | .mxcfg .. | .mxscl .. | .send .. | .recv .. | .probe .. | .mbwait .. | .mcast .. | .cwait .. | .spawn .. | .exit .. | .gbar ..
  | .gang .. | .tclose .. => true
  | .sts _ _ _ mode _ => mode = .putempty || 32 ≤ th.sbuf.length + queued
  | .st .. | .strl .. | .vst .. | .vstx .. => 32 ≤ th.sbuf.length + queued
  | .copy .. => 64 ≤ s.copiesOf th.id.core + queued
  | .faddS .. | .fsubS .. | .fmulS .. | .fminS .. | .fmaxS .. | .fmaS .. | .faddD .. | .fsubD .. | .fmulD .. | .fminD ..
  | .fmaxD .. | .fmaD .. | .fcmpS .. | .fcmpeS .. | .fcmpD .. | .fcmpeD .. | .fclass .. | .fsgn .. | .fcvt .. | .fround .. | .vfadd .. | .vfsub ..
  | .vfmul .. | .vfma .. | .vfmin .. | .vfmax .. | .vfcmp .. | .vfcvt .. | .vredadd .. | .vredmax .. | .vsdot ..
  | .vscvt .. => fp
  | _ => false

/-- Whether an instruction writes FCSR, and with it the enables (R21). -/
def writesFcsr : Instr → Bool
  | .csrw _ _ _ n => n == 0
  | _ => false

/-- Whether a member of the gang lets the leader issue its next word: nothing it issues, or has still to issue, parks
(R197, R209). -/
def memberReady (s : State) (t : Tid) : Bool :=
  match s.thread? t with
  | none => true
  | some th =>
    match th.gang with
    | .follower _ _ ws =>
      th.run = .ready && !(ws.foldl (fun (x : Bool × Bool) w => match decode w.word with
        | .ok i => (x.1 || writesFcsr i, x.2 || mayPark s th ws.length x.1 i)
        | .error _ => x) (decide (th.enables ≠ 0), false)).2
    | _ => true

/-- Whether a thread may issue now (R339): ready, its gaps passed, and for a leader every member ready. -/
def State.issuable (s : State) (th : Thread) : Bool :=
  th.run = .ready && th.gapUntil ≤ s.ticks && s.ctxRuns th &&
    match th.gang with
    | .none => true
    | .leader _ ms => th.again || ms.all (memberReady s)
    | .follower _ _ ws => match ws with
      | f :: _ => f.due ≤ s.ticks
      | [] => false

/-- The first of the threads whose slot is at or after p, in slot order around the core. -/
def roundRobin (ths : List Thread) (p : Nat) : Option Thread :=
  match ths.find? (fun t => p ≤ t.id.slot) with
  | some t => some t
  | none => ths.head?

/-- The thread that issues on a core at this tick, and the core's new pointers (R339): the owner of the tick's position first
(R283, R340). A follower issues its forwarded word in the tick it is due (R209), or in the first tick after it that no owner
takes (log 106). -/
def State.choose (s : State) (core : Nat) : Option Thread × CoreRec :=
  let c := s.core core
  let ths := s.threadsWhere (fun t => t.id.core == core && s.issuable t)
  let pos := (s.ticks + 64 - c.lag % 64) % 64
  match ths.find? (fun t => bit t.wheel pos) with
  | some t => (some t, c)
  | none =>
    match ths.find? (·.isFollower) with
    | some t => (some t, c)
    | none =>
      match roundRobin (ths.filter (fun t => t.wheel == 0)) c.bgPtr with
      | some t => (some t, { c with bgPtr := (t.id.slot + 1) % 64 })
      | none =>
        match roundRobin (ths.filter (fun t => t.wheel != 0)) c.ownPtr with
        | some t => (some t, { c with ownPtr := (t.id.slot + 1) % 64 })
        | none => (none, c)

/-! ### Fetch (R44, R76, R307) -/

/-- What stands at a thread's next instruction boundary. -/
inductive Fetch where
  | cancelled                      -- its kernel is cancelled (R337)
  | lost                           -- a lost store is reported (R176, R349)
  | fatal (c : Cause) (v : W64)    -- no word is fetched (R44), or the word is poisoned (R307)
  | illegal (v : W64)              -- R95
  | instr (i : Instr) (w : W32)
  deriving DecidableEq, Repr

def State.fetch (s : State) (th : Thread) : Fetch :=
  let w := s.codeWord th.id.core th.pc
  if th.cancel && th.depth = 0 then .cancelled
  else if !th.lost.isEmpty then .lost
  else if !(s.ctxOf th).loaded th.pc then .fatal .protect (at_ th.pc 0)
  else if s.mem.badCode.contains (codeKey (clusterOf th.id.core) th.pc) then .fatal .poison (at_ th.pc 0)
  else match decode w with
    | .ok i => .instr i w
    | .error _ => .illegal (w.zeroExtend 64)

/-- The faulting instruction when no word can be fetched: the one that falls through, when its successor is fetched, else the
word itself; a poisoned word is itself at fault (R44, R307, R352). -/
def Thread.fetchFault (th : Thread) (c : Cause) : Nat :=
  if c = .protect && th.entry.isNone && th.insn + 4 = th.pc then th.insn else th.pc

/-- The word that a follower has next: the address it was forwarded with (R209). -/
def Thread.takeForward (th : Thread) : Thread :=
  match th.gang with
  | .follower l h (f :: r) => { th with pc := f.pc, gang := .follower l h r }
  | _ => th

/-- Hops between two cores of a cluster (R207). -/
def lagBetween (a b : Nat) : Nat :=
  let d := fun (x y : Nat) => if x < y then y - x else x - y
  d (a % 16 / 4) (b % 16 / 4) + d (a % 4) (b % 4)

/-- A leader's word goes to its followers, each lag ticks later (R209); one that was withdrawn from the leader alone does not
go again (R354). -/
def State.forward (s : State) (th : Thread) (w : W32) : State :=
  match th.gang with
  | .leader _ ms =>
    if th.again then s.modThread th.id (fun u => { u with again := false })
    else (ms.filter (· != th.id)).foldl (fun st m => st.modThread m (fun f =>
      match f.gang with
      | .follower l h ws => { f with gang := .follower l h (ws ++ [{ due := s.ticks + h, pc := th.pc, word := w }]) }
      | _ => f)) s
  | _ => s

/-- Whether a gang member that traps at its issue waits for the issues that other members make in the same tick: they have
issued their words of this tick when the gang is dissolved (R212). -/
def State.holdsBack (s s' : State) (th : Thread) : Bool :=
  let trapped : Bool := match s'.thread? th.id with
    | some u => u.entry.isSome && u.entry != th.entry
    | none => false
  th.gang != .none && trapped && (s.gangOf th).any (fun m => th.id.core < m.core && s.sched.turn.contains m.core)

/-- The outcome of a core's issue, or the core's place at the end of the turn. -/
def State.orHoldBack (s : State) (th : Thread) (o : Host.Outcome State Fault Refusal) : Host.Outcome State Fault Refusal :=
  match o with
  | .next s' => if s.holdsBack s' th then .next { s with sched := { s.sched with turn := s.sched.turn ++ [th.id.core] } } else .next s'
  | .fault f => .fault f
  | .refused r => .refused r

/-! ### The advance of TICKS -/

/-- The events that fall at a tick whatever happened before it: the publication and the sample of the min tree (R341), the
domain sample, the ebb (R407), the error windows (R420), the sample of TJ (R472), and the queue processor's next start (R327), unless a partition
command waits for it (R467). -/
def periodic (s : State) (t : Nat) : List (Nat × Instr) :=
  (if t % 64 = 0 then [(rankPublish, Instr.lwmPublication), (rankPublish, .minTreeSample)] else []) ++
  (if t % 1024 = 0 then [(rankPublish, Instr.domainLwmSample)] else []) ++
  (if t % 65536 = 65344 then [(rankLast, .ebbStart)] else []) ++
  (if t % 65536 = 0 then [(rankLast, .ebbEnd)] else []) ++
  (if t % 65536 = 0 then [(rankLast, .thermalSample (Config.junction t))] else []) ++
  (if t % 1750000 = 0 then [(rankLast, .laneWindowStart)] else []) ++
  (if s.qp.lastTick + 32 ≤ t && s.qp.ucodeAt ≤ t && s.host.partWait.isNone && s.queues.any (fun q => q.2.en && q.2.state.toNat < 2) then
    [(rankLast, .queuePacketStart)] else [])

/-- The cores that hold a thread, in ascending index. -/
def State.busyCores (s : State) : List Nat := (s.threads.map (fun e => e.1 / 64)).eraseDups

/-- A tick begins: its events in order, then every core issues (R36, R180, R205). A snapshot holds the values at the
start of its tick (R450). The boot ROM reaches WAIT after a free time (R463). -/
def State.beginTick (s : State) : State :=
  let t := s.ticks + 1
  let due := (s.sched.timers.takeWhile (fun e => e.1 ≤ t)).map (fun e => (t, e.2))
  let all := (periodic s t).foldl (fun l e => insertTimer t e.1 e.2 l) due
  { s with
    ticks := t,
    host := if s.host.boot = 0 && Config.bootTicks ≤ t then { s.host with boot := 1 } else s.host,
    sched := { s.sched with
      timers := s.sched.timers.dropWhile (fun e => e.1 ≤ t),
      agenda := (if t % 1024 = 0 then [Instr.counterSnapshot] else []) ++ all.map (·.2.2),
      turn := s.busyCores, cur := none } }

/-- The partition command that waits for a start of the queue processor, when one falls in the present tick (R327, R467, R469). -/
def State.partDue (s : State) : Option Instr :=
  if s.qp.lastTick + 32 ≤ s.ticks && s.qp.ucodeAt ≤ s.ticks then s.host.partWait else none

/-- The present tick is over. A partition command due in it comes now, behind everything else (R467). Else the next tick begins: the waits on counters and maps are looked at once more (R36); the streamers read (R389), the network moves
its packets (R397 to R407), the row arrays work (R372), free match units take what waits (R381); then the tick's events and issues follow. -/
def State.nextTick (s : State) : State :=
  match s.partDue with
  | some e => s.nextNow [e]
  | none => State.unitTicks s.rxe.waiting.length ((s.tickTests.streamTick.netTick (s.ticks + 1)).beginTick).rowTicks

end Sys2Proof.Machine
end

