-- ==== Sys2Proof/Machine/Threads.lean ====
section
/-! DEFINITION. Meanings of the thread, group, gang and virtual-time instructions and of their events (spec 08 R199 to
R213; 22 R411; 23 R440). -/

namespace Sys2Proof.Machine

/-! ### SPAWN (R200) -/

/-- A child descriptor's own fields. -/
structure ChildDesc where
  entry : Nat
  xsize : Nat
  vsize : Nat
  wheel : Nat
  core  : Nat
  deriving DecidableEq, Repr

def childDesc (issuer : Nat) (d : W64) : ChildDesc :=
  { entry := fld d 2 16 * 4, xsize := fld d 18 8, vsize := fld d 26 6, wheel := fld d 32 7,
    core := if fld d 40 13 = 0x1FFF then issuer else fld d 40 13 }

/-- The limits of the first word of a child descriptor. -/
def childIllegal (c : Ctx) (d : W64) (k : ChildDesc) : Bool :=
  fld d 0 2 ≠ 0 || bit d 39 || fld d 53 11 ≠ 0 || k.xsize % 8 ≠ 0 || k.xsize < 8 || 128 < k.xsize || k.vsize % 2 ≠ 0 ||
    32 < k.vsize || 64 < k.wheel || !(k.core < Config.cores && c.holdsCore k.core)

/-- A child created by SPAWN (R45). -/
def childOf (p : Thread) (t : Tid) (o : Occ) (entry : Nat) (args : List W64) (now : Nat) : Thread :=
  let b := newThread t p.asid p.kernel
  let u := { b with
    xbase := o.xbase, xsize := o.xsize, vbase := o.vbase, vsize := o.vsize, wheel := o.wheel, pc := entry, insn := entry,
    csr := { b.csr with fcsr := p.csr.fcsr &&& ~~~0x80F8, vtime := p.csr.vtime, tvec := p.csr.tvec, chk := p.csr.chk,
                        feretry := p.csr.feretry, detlvl := p.csr.detlvl },
    gapUntil := now + 1, cap := p.cap, cancel := p.cancel }
  (args.zip (List.range 8)).foldl (fun u a => if 4 + a.2 < o.xsize then u.setX (BitVec.ofNat 7 (4 + a.2)) a.1 else u) u

/-- SPAWN: the descriptor's address is checked at issue, and its nine words are read as ordinary loads read (R200). -/
def execSpawn (st : Stall) (d a : XReg) (s : State) : Host.Outcome State Fault Refusal :=
  issue s st none (.da d a 0) (fun s1 th =>
    let c := s1.ctxOf th
    let ad := th.getX a
    if bit ad 63 || fld ad 61 2 ≠ 1 || protectFault c th.id.core ad 72 true false then .trap .protect ad
    else if fld ad 0 3 ≠ 0 then .trap .align ad
    else .ok (s1.sendAccess th.id (th.access ((List.range 9).flatMap (fun i =>
      loadLanes c th.id.core i (ad + BitVec.ofNat 64 (8 * i)) 8 0)) (.spawn d))))

/-- SPAWN_PLACEMENT: once the descriptor has landed it is checked; after at least four ticks of placement, and the crossing to
another core, the child is created or refused, and the parent wakes (R200). -/
def execSpawnPlacement (t : Tid) (s : State) : Host.Outcome State Fault Refusal :=
  .next (match s.thread? t with
    | none => s
    | some th =>
      match th.run with
      | .parked (.spawn d ws placing) =>
        let c := s.ctxOf th
        let w := ws.headD 0
        let k := childDesc t.core w
        if placing then
          match placeOn (s.occupied k.core) k.xsize k.vsize k.wheel with
          | none => s.wakeX t d (BitVec.allOnes 64)
          | some o =>
            let n : Tid := { core := k.core, slot := o.slot }
            (s.putThread (childOf th n o k.entry (ws.drop 1) s.ticks)).wakeX t d (threadReg s.ni.peer n)
        else if childIllegal c w k then s.trapParked t .illegal w
        else if !c.loaded k.entry then s.trapParked t .protect (at_ k.entry 0)
        else
          let f := s.thDraw th 0 4
          let s1 := f.2.modThread t (fun u => { u with run := .parked (.spawn d ws true) })
          if k.core = t.core then s1.after_ (4 + f.1) rankLast (.spawnPlacement t)
          else s1.portPacket t.core k.core false (s.plannedKernel th.kernel) 72 (3 + f.1) 0 rankLast false (.child t)
      | _ => s)

/-! ### EXIT (R201) -/

/-- A follower that ends or splits off leaves its gang, and its core's lag goes (R210). -/
def State.leaveGang (s : State) (th : Thread) : State :=
  if th.isFollower then (s.modThread th.id (fun u => { u with gang := .none })).modCore th.id.core (fun c => { c with lag := 0 })
  else s.modThread th.id (fun u => { u with gang := .none })

/-- EXIT (R201). -/
def execExit (st : Stall) (s : State) : Host.Outcome State Fault Refusal :=
  issue s st none .none (fun s1 th =>
    if 0 < th.depth then .trap .nesting (at_ th.depth 0)
    else .ok (((s1.leaveGang th).endThread th.id).pollAll))

/-! ### Groups and barriers (R202 to R206) -/

/-- JOIN (R37, R202, R204). -/
def execJoin (st : Stall) (a : XReg) (s : State) : Host.Outcome State Fault Refusal :=
  issue s st none (.rd [a]) (fun s1 th =>
    let v := th.getX a
    let g := v.toNat
    if 4095 < g then .trap .illegal v
    else if (s1.membersOf th.id).any (fun m => m.group == g) then .ok s1
    else if 8 ≤ (s1.membersOf th.id).length || 128 ≤ (s1.core th.id.core).members.length then .trap .refused v
    else .ok (s1.modCore th.id.core (fun c => { c with
      members := c.members ++ [{ group := g, slot := th.id.slot, pending := (s1.group th.asid g).isOpen, since := s1.ticks }] })))

/-- LEAVE (R202, R204). -/
def execLeave (st : Stall) (a : XReg) (s : State) : Host.Outcome State Fault Refusal :=
  issue s st none (.rd [a]) (fun s1 th =>
    let v := th.getX a
    if 4095 < v.toNat then .trap .illegal v
    else if (s1.membersOf th.id).any (fun m => m.group == v.toNat) then .ok ((s1.leaveGroup th v.toNat).pollAll)
    else .ok s1)

/-- GBAR and GBAR.TIDE (R205): a member of an open phase of the other kind does not arrive. -/
def execGbar (st : Stall) (a : XReg) (tide : Bool) (s : State) : Host.Outcome State Fault Refusal :=
  issue s st none (.rd [a]) (fun s1 th =>
    let v := th.getX a
    let g := v.toNat
    let r := s1.group th.asid g
    if 4095 < g then .trap .illegal v
    else match (s1.membersOf th.id).find? (fun m => m.group == g) with
      | none => .trap .refused v
      | some m =>
        if !m.pending && r.isOpen && r.tide != tide then .trap .gangmismatch v
        else .ok ((s1.park th.id (.gbar g tide false)).poll th.id).pollAll)

/-- The completion of a phase on this package (R205): the tide, then every member that arrived by GBAR wakes. -/
def State.finishPhase (s : State) (g : Nat) (p : Phase) : State :=
  let top := topVtime p.arrivals p.top
  let c := if top = BitVec.allOnes 64 then top else top + 1
  let cores := (p.arrivals.map (·.tid.core)).eraseDups
  let s1 := if p.tide then
      (p.arrivals.filter (·.byGbar)).foldl (fun st a =>
        st.modThread a.tid (fun th => { th with csr := { th.csr with vtime := c } }))
        (cores.foldl (fun st k => st.modCore k (fun r => { r with bank := !r.bank })) s)
    else s
  (p.arrivals.filter (·.byGbar)).foldl (fun st a =>
    match st.waiting? a.tid with
    | some (.gbar h _ true) => if h = g then st.wake a.tid else st
    | _ => st) s1

/-- BARRIER_COMPLETE: the oldest closed phase of the group wakes its members (R203, R205, R411). -/
def execBarrierComplete (asid group : Nat) (s : State) : Host.Outcome State Fault Refusal :=
  let r := s.group asid group
  .next (match r.done with
    | [] => s
    | p :: rest => ((s.putGroup asid group { r with done := rest }).finishPhase group p).pollAll)

/-- An open phase turns out to have opened earlier, on another package: its set is that of the earlier tick, and its kind the one
used there. Arrivals of threads that had joined later wait for the next phase, and arrivals of the other kind take GANGMISMATCH: they
have not arrived (R203 to R205, log 24). -/
def State.reopened (s : State) (asid g peer tick : Nat) (tide : Bool) : State :=
  let r := s.group asid g
  let gone := r.leftSince tick
  let set := s.memberSet asid g tick ++ gone.map (·.tid)
  let gbars := r.arrivals.filter (·.byGbar)
  let late := (gbars.filter (fun a => !set.contains a.tid)).map (·.tid)
  let wrong := if r.tide = tide then [] else (gbars.filter (fun a => set.contains a.tid)).map (·.tid)
  let kept := r.arrivals.filter (fun a => set.contains a.tid && !gone.contains a && !(wrong.contains a.tid && a.byGbar))
  let s1 := (s.joinsWait asid g tick).putGroup asid g { r with
    openAt := (tick, peer), tide := tide, set := set, arrivals := gone ++ kept, reopen := none }
  let s2 := late.foldl (fun st t => st.modThread t (fun u => { u with run := .parked (.gbar g r.tide false) })) s1
  (wrong.foldl (fun st t => st.trapParked t .gangmismatch (at_ g 0)) s2).phaseCheck asid g

/-- The first arrival of a phase on another package is known here: the phase opens, or turns out to have opened earlier. When this
package's arrival has gone to the root, it is taken back first (R203, R205, R440, log 24). -/
def State.openedElsewhere (s : State) (asid g peer tick : Nat) (tide : Bool) : State :=
  let r := s.group asid g
  if !r.isOpen then (s.openPhase asid g tide (tick, peer)).phaseCheck asid g
  else
    let first := tick < r.openAt.1 || (tick = r.openAt.1 && peer < r.openAt.2)
    let r1 := { r with peers := if r.peers.contains peer then r.peers else r.peers ++ [peer] }
    if !first then s.putGroup asid g r1
    else if r.sent then
      let s1 := s.putGroup asid g { r1 with reopen := some (peer, tick, tide) }
      if r.reopen.isSome then s1 else s1.tell (s.rootOf r1) (.arrival asid g .recall)
    else (s.putGroup asid g r1).reopened asid g peer tick tide

/-- BARRIER_ARRIVAL_NOTICE: word of another package about its arrivals (R440), or about one that is withdrawn (R219). -/
def execBarrierArrivalNotice (asid group peer : Nat) (n : BarNotice) (s : State) : Host.Outcome State Fault Refusal :=
  let s0 := s.modCtx asid Ctx.spanning
  let r := s0.group asid group
  .next (match n with
    | .opened tick tide => (s0.openedElsewhere asid group peer tick tide).pollAll
    | .arrived top =>
      ((s0.putGroup asid group { r with
        peers := if r.peers.contains peer then r.peers else r.peers ++ [peer],
        remote := (r.remote.filter (fun x => !(x.1 == peer))) ++ [(peer, top)] }).phaseCheck asid group).pollAll
    | .recall =>
      if r.remote.any (fun x => x.1 == peer) then
        (s0.putGroup asid group { r with remote := r.remote.filter (fun x => !(x.1 == peer)) }).tell peer (.arrival asid group .recalled)
      else s0
    | .recalled =>
      let s1 := r.recalls.foldl State.cameBack (s0.putGroup asid group { r with
        sent := false, recalls := [], arrivals := r.arrivals.filter (fun a => !r.recalls.contains a.tid) })
      match r.reopen with
      | none => s1
      | some (p, tick, tide) => (s1.reopened asid group p tick tide).pollAll)

/-- BARRIER_COMPLETION_NOTICE: the root's completion reaches this package, which wakes its members at once (R440). -/
def execBarrierCompletionNotice (asid group : Nat) (maxVtime : W64) (s : State) : Host.Outcome State Fault Refusal :=
  let r := s.group asid group
  .next (if r.isOpen then
      let p : Phase := { arrivals := r.arrivals, tide := r.tide, top := maxVtime }
      let s1 := s.closePhase asid group p
      ((s1.putGroup asid group { s1.group asid group with done := r.done }).finishPhase group p).pollAll
    else s)

/-! ### Gangs (R207 to R212) -/

/-- Cores of a gang. -/
def gangCores : GangSize → Nat
  | .g2 => 2 | .g4 => 4 | .g8 => 8 | .g16 => 16

/-- The thread of a context that waits in GANG.FOLLOW on a core. -/
def State.follower? (s : State) (asid core : Nat) : Option Thread :=
  (s.threadsOf asid).find? (fun t => t.id.core == core && match t.run with | .followWait _ => true | _ => false)

/-- The followers that a leader on base core b finds, or the first core that fails (R209). -/
def State.followers (s : State) (asid b : Nat) (size : GangSize) : List Nat → Except Nat (List Thread)
  | [] => .ok []
  | i :: r =>
    match s.follower? asid (b + i) with
    | some t => if t.run = .followWait size then (s.followers asid b size r).map (t :: ·) else .error (b + i)
    | none => .error (b + i)

/-- The gang forms (R209): every follower ceases independent fetch, every follower core takes its lag. -/
def State.formGang (s : State) (lead : Thread) (size : GangSize) (fs : List Thread) : State :=
  let ms := lead.id :: fs.map (·.id)
  let s1 := s.modThread lead.id (fun u => { u with gang := .leader size ms })
  fs.foldl (fun st f =>
    let h := lagBetween lead.id.core f.id.core
    (st.modThread f.id (fun u => { u with run := .ready, gang := .follower lead.id h [] })).modCore f.id.core
      (fun c => { c with lag := h })) s1

/-- GANG.LEAD and GANG.FOLLOW (R207 to R209). -/
def execGang (st : Stall) (size : GangSize) (role : GangRole) (s : State) : Host.Outcome State Fault Refusal :=
  issue s st (some 4) .none (fun s1 th =>
    let n := gangCores size
    let core := th.id.core
    match role with
    | .follow =>
      if core % 16 % n = 0 || (s1.follower? th.asid core).isSome then .trap .gangmismatch (at_ core 0)
      else .ok (s1.modThread th.id (fun u => { (u.park .exitDrain) with run := .followWait size }))
    | .lead =>
      if th.gang ≠ .none || core % 16 % n ≠ 0 then .trap .gangmismatch (at_ core 0)
      else match s1.followers th.asid core size ((List.range n).drop 1) with
        | .error c => .trap .gangmismatch (at_ c 0)
        | .ok fs =>
          match fs.find? (fun f => f.wheel ≠ th.wheel) with
          | some f => .trap .gangmismatch (at_ f.id.core 0)
          | none => .ok (s1.formGang th size fs))

/-- SPLIT: the leader goes on; a follower leaves the gang and transfers to its own xa, checked outside the gang (R210). -/
def execSplit (st : Stall) (a : XReg) (s : State) : Host.Outcome State Fault Refusal :=
  issue s st (some 4) (.rd [a]) (fun s1 th =>
    match th.gang with
    | .none => .trap .gangmismatch (at_ th.id.core 0)
    | .leader _ _ => .ok (s1.leaveGang th)
    | .follower _ _ _ =>
      let s2 := s1.leaveGang th
      match checkTarget (s2.ctxOf th) (th.getX a) with
      | some c => .ok (s2.trap th.id c (th.getX a) th.insn)
      | none => .ok (s2.modThread th.id (fun u => { u with pc := (th.getX a).toNat })))

/-! ### Virtual time (R213) -/

/-- VTADV (R213). -/
def execVtadv (st : Stall) (a : XReg) (s : State) : Host.Outcome State Fault Refusal :=
  issue s st none (.rd [a]) (fun s1 th =>
    if 2 ^ 64 ≤ th.csr.vtime.toNat + (th.getX a).toNat then .trap .illegal (th.getX a)
    else .ok (s1.modThread th.id (fun u => { u with csr := { u.csr with vtime := u.csr.vtime + th.getX a } })))

end Sys2Proof.Machine
end

