-- ==== Sys2Proof/Machine/Ports.lean ====
section
/-! DEFINITION. What the packets of the crossbar do at their target ports, in the order of their numbers (spec 22 R399, R402). -/

namespace Sys2Proof.Machine

/-- A refusal is back at the thread's core, which retries 64 ticks later, unless the access is to be withdrawn (R182, R219, R354). -/
def State.refusalBack (s : State) (t : Tid) : State :=
  match s.thread? t with
  | none => s
  | some th => match th.run with
    | .parked (.feRefused _ _) =>
      if s.withdraws th then s.cameBack t else s.after_ 64 (rankArrive (globalName s.ni.peer t)) (.feRetry t)
    | _ => s

/-- The load or full/empty access of a thread at a port: what is left of it for the next ticks, what follows at once, and the state. -/
def State.loadAtPort (s : State) (port : Nat) (t : Tid) (due : Nat) : Option PortOp × Option Instr × State :=
  match s.thread? t with
  | none => (none, none, s)
  | some th =>
    match th.run with
    | .parked (.access a) =>
      if detAmo th a then (none, some (.detAtomicAccept t), s)
      else
        let x := s.portLoad th a port due
        (x.1.map (.loadOf t), none, x.2)
    | .parked (.feRefused a n) => (none, none, s.feAgain t a n)
    | _ => (none, none, s)

/-- A store of a thread at a port. -/
def State.storeAtPort (s : State) (port : Nat) (t : Tid) (id due : Nat) : Option PortOp × Option Instr × State :=
  match s.thread? t with
  | none => (none, none, s)
  | some th =>
    match findEntry id [] th.sbuf with
    | none => (none, none, s)
    | some (_, e) =>
      let x := s.portStore th e port due
      (x.1.map (.storeOf t id), none, x.2)

/-- An operation of a packet from a source port is performed at its port: what is left of it for the next ticks, the event that follows
at once, and the state (R399, R402). -/
def State.atPort (s : State) (src port : Nat) (op : PortOp) : Option PortOp × Option Instr × State :=
  match op with
  | .loadOf t due => s.loadAtPort port t due
  | .storeOf t id due => s.storeAtPort port t id due
  | .data a => (none, some (.loadResponse a), s)
  | .ack a id => (none, some (.storePerformed a id), s)
  | .refused t => (none, none, s.refusalBack t)
  | .source id q => (none, none, s.sourceAsked id q port)
  | .sourceBack id q => (none, none, (s.sourceCame id q src).pollAll)
  | .read id n => (none, none, s.readAsked id n port)
  | .readBack id n => (none, none, s.readCame id n src)
  | .child t => (none, some (.spawnPlacement t), s)
  | .request peer seq => (none, none, s.takesIn peer seq)
  | .access p seq => (none, none, s.crossArrives p seq)
  | .answer p seq asid tid r bounded => (none, none, s.respond p seq asid tid r bounded)
  | .reply r store res => (none, none, s.answered r store res)

/-- A port has begun to perform a packet and goes on with it. -/
def portBegun : PortOp → Bool
  | .loadOf _ due => due ≠ 0
  | .storeOf _ _ due => due ≠ 0
  | _ => false

/-- The place in a tick of what is left of a packet: its issuer's (R180). -/
def State.portRank (s : State) (op : PortOp) : Nat :=
  match op with
  | .loadOf t _ | .storeOf t _ _ => rankArrive (globalName s.ni.peer t)
  | _ => rankLand

/-- The packet of a number that waits at a port. -/
def State.waitsAt (s : State) (key n : Nat) : Option PortOp :=
  (s.xbar.early.find? (fun e => e.1 == key && e.2.1 == n)).map (·.2.2)

/-- A packet has been performed: the port looks for the next number. -/
def State.portNext (s : State) (key n : Nat) : State :=
  { s with xbar := { s.xbar with
    early := s.xbar.early.filter (fun x => !(x.1 == key && x.2.1 == n)), expected := s.xbar.expected.put key ((n + 1) % 65536) } }

/-- Packets are performed in the order of their numbers, each once its predecessor has been performed (R402); what is left of one
goes on in the next tick, in its issuer's place (R180), and what follows one at once comes before the next. -/
def drainPort (key src port : Nat) : Nat → State → State
  | 0, s => s
  | f + 1, s =>
    let n := s.xbar.expected.getD key 0
    match s.waitsAt key n with
    | none => s
    | some op0 =>
      match s.atPort src port op0 with
      | (some op, _, s1) =>
        ({ s1 with xbar := { s1.xbar with
          early := s1.xbar.early.map (fun (x : Nat × Nat × PortOp) => if x.1 = key && x.2.1 = n then (key, n, op) else x) } }).after_ 1
            (s.portRank op) (.crossbarPacketArrival src port n op)
      | (none, none, s1) => drainPort key src port f (s1.portNext key n)
      | (none, some e, s1) =>
        let s2 := s1.portNext key n
        let m := s2.xbar.expected.getD key 0
        s2.nextNow (e :: ((s2.waitsAt key m).map (.crossbarPacketArrival src port m)).toList)

/-- CROSSBAR_PACKET_ARRIVAL: a port performs the packets of one source in the order of their numbers (R402). A packet that
the port has begun goes on when its own event comes again. -/
def execCrossbarPacketArrival (src port seq : Nat) (op : PortOp) (s : State) : Host.Outcome State Fault Refusal :=
  let key := src * 8192 + port
  let n := s.xbar.expected.getD key 0
  let s1 := if (s.waitsAt key seq).isSome then s else { s with xbar := { s.xbar with early := s.xbar.early ++ [(key, seq, op)] } }
  .next (if (s.waitsAt key n).any portBegun && seq ≠ n then s1 else drainPort key src port s1.xbar.early.length s1)

end Sys2Proof.Machine
end

