-- ==== Sys2Proof/Machine/VectorMem.lean ====
section
/-! DEFINITION. Meanings of the vector loads and stores (spec 06 R157 to R159). -/

namespace Sys2Proof.Machine

/-- ALIGN, then the whole range, regardless of the mask (R157). -/
def State.blockFault (s : State) (c : Ctx) (core : Nat) (a : W64) (n : Nat) (wr : Bool) : Option Cause :=
  if fld a 0 6 ≠ 0 then some .align
  else if protectFault c core a n (!wr) wr then some .protect
  else if bit a 63 && !(bit c.features 10 && s.peerValid (peerOf a)) then some .nopeer
  else none

/-- The enabled 8-byte lanes of a block (R157). -/
def blockLanes (mask : W64) (pair : Bool) : List Nat := (List.range (if pair then 16 else 8)).filter (fun j => bit mask j)

/-- Lane j of a register or pair. -/
def blockLane (th : Thread) (v : VReg) (j : Nat) : W64 :=
  BitVec.ofNat 64 (laneOf 64 (th.getV (v + BitVec.ofNat 5 (j / 8))) (j % 8))

/-- VLD (R157). -/
def execVld (st : Stall) (v : VReg) (a : XReg) (m : MReg) (pair : Bool) (off : BitVec 6) (s : State) :
    Host.Outcome State Fault Refusal :=
  let vs := (pairRegs v pair).map RegRef.v
  issue s st featVec ⟨vs ++ [.x a, .m m], [.x a, .m m], vs, 0⟩ (fun s1 th =>
    let c := s1.ctxOf th
    let ad := addrOff6 (th.getX a) off
    match s1.blockFault c th.id.core ad (if pair then 128 else 64) false with
    | some k => .trap k ad
    | none => .ok (s1.sendAccess th.id (th.access ((blockLanes (th.getM m) pair).flatMap (fun j =>
        loadLanes c th.id.core j (ad + BitVec.ofNat 64 (8 * j)) 8 (64 * j))) (.v v))))

/-- VST: one store-buffer entry for all lanes (R157). -/
def execVst (st : Stall) (v : VReg) (a : XReg) (m : MReg) (pair : Bool) (off : BitVec 6) (s : State) :
    Host.Outcome State Fault Refusal :=
  let vs := (pairRegs v pair).map RegRef.v
  issue s st featVec ⟨vs ++ [.x a, .m m], vs ++ [.x a, .m m], [], 0⟩ (fun s1 th =>
    let c := s1.ctxOf th
    let ad := addrOff6 (th.getX a) off
    match s1.blockFault c th.id.core ad (if pair then 128 else 64) true with
    | some k => .trap k ad
    | none => .ok (s1.store th.id ((blockLanes (th.getM m) pair).flatMap (fun j =>
        storeLanes c th.id.core (ad + BitVec.ofNat 64 (8 * j)) 8 (blockLane th v j))) false))

/-- Address of lane i of a gather or scatter (R158). -/
def laneAddr (th : Thread) (a : XReg) (b : VReg) (w scale i : Nat) : W64 :=
  th.getX a + BitVec.ofInt 64 (laneInt w (laneOf w (th.getV b) i)) * BitVec.ofNat 64 scale

/-- The first failing lane in ascending order: ALIGN, PROTECT, NOPEER (R158). -/
def State.lanesFault (s : State) (c : Ctx) (core n : Nat) (wr : Bool) (as : List W64) : Option (Cause × W64) :=
  as.findSome? (fun a =>
    if a.toNat % n ≠ 0 then some (.align, a)
    else if protectFault c core a n (!wr) wr then some (.protect, a)
    else if bit a 63 && !(bit c.features 10 && s.peerValid (peerOf a)) then some (.nopeer, a)
    else none)

/-- VLDX (R158). -/
def execVldx (st : Stall) (v b : VReg) (a : XReg) (m : MReg) (e sc : ESz) (s : State) : Host.Outcome State Fault Refusal :=
  let w := eszWidth e
  issue s st featVec ⟨[.v v, .v b, .x a, .m m], [.v b, .x a, .m m], [.v v], 0⟩ (fun s1 th =>
    let c := s1.ctxOf th
    let ls := (List.range (lanesOf w)).filter (fun i => bit (th.getM m) i)
    let ad := laneAddr th a b w (eszWidth sc / 8)
    match s1.lanesFault c th.id.core (w / 8) false (ls.map ad) with
    | some (k, f) => .trap k f
    | none => .ok (s1.sendAccess th.id (th.access (ls.flatMap (fun i =>
        loadLanes c th.id.core i (ad i) (w / 8) (w * i))) (.v v))))

/-- VSTX: lanes in ascending order, one store-buffer entry (R158, R159). -/
def execVstx (st : Stall) (v b : VReg) (a : XReg) (m : MReg) (e sc : ESz) (s : State) : Host.Outcome State Fault Refusal :=
  let w := eszWidth e
  issue s st featVec ⟨[.v v, .v b, .x a, .m m], [.v v, .v b, .x a, .m m], [], 0⟩ (fun s1 th =>
    let c := s1.ctxOf th
    let ls := (List.range (lanesOf w)).filter (fun i => bit (th.getM m) i)
    let ad := laneAddr th a b w (eszWidth sc / 8)
    match s1.lanesFault c th.id.core (w / 8) true (ls.map ad) with
    | some (k, f) => .trap k f
    | none => .ok (s1.store th.id (ls.flatMap (fun i =>
        storeLanes c th.id.core (ad i) (w / 8) (BitVec.ofNat 64 (laneOf w (th.getV v) i)))) false))

end Sys2Proof.Machine
end

