-- ==== Sys2Proof/Machine/Dispatch.lean ====
section
/-! DEFINITION. One arm per instruction and event: each a direct call of its meaning. -/

namespace Sys2Proof.Machine

/-- The meaning of an instruction or event. -/
def exec (i : Instr) (s : State) : Host.Outcome State Fault Refusal :=
  match i with
  | .add st d a b => Sys2Proof.Machine.execAdd st d a b s
  | .sub st d a b => Sys2Proof.Machine.execSub st d a b s
  | .and st d a b => Sys2Proof.Machine.execAnd st d a b s
  | .or st d a b => Sys2Proof.Machine.execOr st d a b s
  | .xor st d a b => Sys2Proof.Machine.execXor st d a b s
  | .sll st d a b => Sys2Proof.Machine.execSll st d a b s
  | .srl st d a b => Sys2Proof.Machine.execSrl st d a b s
  | .sra st d a b => Sys2Proof.Machine.execSra st d a b s
  | .mul st d a b => Sys2Proof.Machine.execMul st d a b s
  | .mulh st d a b => Sys2Proof.Machine.execMulh st d a b s
  | .mulhu st d a b => Sys2Proof.Machine.execMulhu st d a b s
  | .div st d a b => Sys2Proof.Machine.execDiv st d a b s
  | .divu st d a b => Sys2Proof.Machine.execDivu st d a b s
  | .rem st d a b => Sys2Proof.Machine.execRem st d a b s
  | .remu st d a b => Sys2Proof.Machine.execRemu st d a b s
  | .slt st d a b => Sys2Proof.Machine.execSlt st d a b s
  | .sltu st d a b => Sys2Proof.Machine.execSltu st d a b s
  | .min st d a b => Sys2Proof.Machine.execMin st d a b s
  | .max st d a b => Sys2Proof.Machine.execMax st d a b s
  | .clz st d a => Sys2Proof.Machine.execClz st d a s
  | .ctz st d a => Sys2Proof.Machine.execCtz st d a s
  | .popc st d a => Sys2Proof.Machine.execPopc st d a s
  | .sext st d a z => Sys2Proof.Machine.execSext st d a z s
  | .zext st d a z => Sys2Proof.Machine.execZext st d a z s
  | .andn st d a b => Sys2Proof.Machine.execAndn st d a b s
  | .cmov st d a b => Sys2Proof.Machine.execCmov st d a b s
  | .addi st d a imm => Sys2Proof.Machine.execAddi st d a imm s
  | .andi st d a imm => Sys2Proof.Machine.execAndi st d a imm s
  | .ori st d a imm => Sys2Proof.Machine.execOri st d a imm s
  | .slli st d a sh => Sys2Proof.Machine.execSlli st d a sh s
  | .srli st d a sh => Sys2Proof.Machine.execSrli st d a sh s
  | .srai st d a sh => Sys2Proof.Machine.execSrai st d a sh s
  | .li st d imm => Sys2Proof.Machine.execLi st d imm s
  | .lim st d imm => Sys2Proof.Machine.execLim st d imm s
  | .b st c a off => Sys2Proof.Machine.execB st c a off s
  | .dbnz st a off => Sys2Proof.Machine.execDbnz st a off s
  | .j st d off => Sys2Proof.Machine.execJ st d off s
  | .jr st d a imm => Sys2Proof.Machine.execJr st d a imm s
  | .faddS st d a b => Sys2Proof.Machine.execFaddS st d a b s
  | .fsubS st d a b => Sys2Proof.Machine.execFsubS st d a b s
  | .fmulS st d a b => Sys2Proof.Machine.execFmulS st d a b s
  | .fdivS st d a b => Sys2Proof.Machine.execFdivS st d a b s
  | .fsqrtS st d a => Sys2Proof.Machine.execFsqrtS st d a s
  | .fminS st d a b => Sys2Proof.Machine.execFminS st d a b s
  | .fmaxS st d a b => Sys2Proof.Machine.execFmaxS st d a b s
  | .fmaS st d a b => Sys2Proof.Machine.execFmaS st d a b s
  | .faddD st d a b => Sys2Proof.Machine.execFaddD st d a b s
  | .fsubD st d a b => Sys2Proof.Machine.execFsubD st d a b s
  | .fmulD st d a b => Sys2Proof.Machine.execFmulD st d a b s
  | .fdivD st d a b => Sys2Proof.Machine.execFdivD st d a b s
  | .fsqrtD st d a => Sys2Proof.Machine.execFsqrtD st d a s
  | .fminD st d a b => Sys2Proof.Machine.execFminD st d a b s
  | .fmaxD st d a b => Sys2Proof.Machine.execFmaxD st d a b s
  | .fmaD st d a b => Sys2Proof.Machine.execFmaD st d a b s
  | .fcmpS st d a b => Sys2Proof.Machine.execFcmpS st d a b s
  | .fcmpeS st d a b => Sys2Proof.Machine.execFcmpeS st d a b s
  | .fcmpD st d a b => Sys2Proof.Machine.execFcmpD st d a b s
  | .fcmpeD st d a b => Sys2Proof.Machine.execFcmpeD st d a b s
  | .fclass st d a p => Sys2Proof.Machine.execFclass st d a p s
  | .fcvt st d a src dst sat => Sys2Proof.Machine.execFcvt st d a src dst sat s
  | .fround st d a rm p => Sys2Proof.Machine.execFround st d a rm p s
  | .fsgn st d a op p => Sys2Proof.Machine.execFsgn st d a op p s
  | .ld st d a k off => Sys2Proof.Machine.execLd st d a k off s
  | .st st d a k off => Sys2Proof.Machine.execSt st d a k off s
  | .lds st d a mode off => Sys2Proof.Machine.execLds st d a mode off s
  | .sts st d a mode off => Sys2Proof.Machine.execSts st d a mode off s
  | .amoAdd st d a b => Sys2Proof.Machine.execAmoAdd st d a b s
  | .amoAnd st d a b => Sys2Proof.Machine.execAmoAnd st d a b s
  | .amoOr st d a b => Sys2Proof.Machine.execAmoOr st d a b s
  | .amoXor st d a b => Sys2Proof.Machine.execAmoXor st d a b s
  | .amoMin st d a b => Sys2Proof.Machine.execAmoMin st d a b s
  | .amoMax st d a b => Sys2Proof.Machine.execAmoMax st d a b s
  | .amoSwap st d a b => Sys2Proof.Machine.execAmoSwap st d a b s
  | .amoFadd st d a b => Sys2Proof.Machine.execAmoFadd st d a b s
  | .cas st d a b z => Sys2Proof.Machine.execCas st d a b z s
  | .ldaq st d a scope off => Sys2Proof.Machine.execLdaq st d a scope off s
  | .strl st d a scope off => Sys2Proof.Machine.execStrl st d a scope off s
  | .fence st kind scope cpy msg mx => Sys2Proof.Machine.execFence st kind scope cpy msg mx s
  | .vld st v a m pair off => Sys2Proof.Machine.execVld st v a m pair off s
  | .vst st v a m pair off => Sys2Proof.Machine.execVst st v a m pair off s
  | .vldx st v b a m e sc => Sys2Proof.Machine.execVldx st v b a m e sc s
  | .vstx st v b a m e sc => Sys2Proof.Machine.execVstx st v b a m e sc s
  | .vadd st d a b m t => Sys2Proof.Machine.execVadd st d a b m t s
  | .vsub st d a b m t => Sys2Proof.Machine.execVsub st d a b m t s
  | .vmul st d a b m t => Sys2Proof.Machine.execVmul st d a b m t s
  | .vmin st d a b m t => Sys2Proof.Machine.execVmin st d a b m t s
  | .vmax st d a b m t => Sys2Proof.Machine.execVmax st d a b m t s
  | .vand st d a b m t => Sys2Proof.Machine.execVand st d a b m t s
  | .vor st d a b m t => Sys2Proof.Machine.execVor st d a b m t s
  | .vxor st d a b m t => Sys2Proof.Machine.execVxor st d a b m t s
  | .vsll st d a b m t => Sys2Proof.Machine.execVsll st d a b m t s
  | .vsrl st d a b m t => Sys2Proof.Machine.execVsrl st d a b m t s
  | .vsra st d a b m t => Sys2Proof.Machine.execVsra st d a b m t s
  | .vfadd st d a b m t => Sys2Proof.Machine.execVfadd st d a b m t s
  | .vfsub st d a b m t => Sys2Proof.Machine.execVfsub st d a b m t s
  | .vfmul st d a b m t => Sys2Proof.Machine.execVfmul st d a b m t s
  | .vfma st d a b m t => Sys2Proof.Machine.execVfma st d a b m t s
  | .vfmin st d a b m t => Sys2Proof.Machine.execVfmin st d a b m t s
  | .vfmax st d a b m t => Sys2Proof.Machine.execVfmax st d a b m t s
  | .vfcmp st g p a b m t => Sys2Proof.Machine.execVfcmp st g p a b m t s
  | .vfcvt st d a m dst src => Sys2Proof.Machine.execVfcvt st d a m dst src s
  | .vshuf st d a b m t => Sys2Proof.Machine.execVshuf st d a b m t s
  | .vredadd st d a m t => Sys2Proof.Machine.execVredadd st d a m t s
  | .vredmax st d a m t => Sys2Proof.Machine.execVredmax st d a m t s
  | .vmerge st d a b m t => Sys2Proof.Machine.execVmerge st d a b m t s
  | .vmask st g a m t => Sys2Proof.Machine.execVmask st g a m t s
  | .vbcast st d x e => Sys2Proof.Machine.execVbcast st d x e s
  | .vext st x a e lane => Sys2Proof.Machine.execVext st x a e lane s
  | .vins st d x e lane => Sys2Proof.Machine.execVins st d x e lane s
  | .vbcasti st d imm t => Sys2Proof.Machine.execVbcasti st d imm t s
  | .vsdot st d a b x => Sys2Proof.Machine.execVsdot st d a b x s
  | .vscvt st d a x => Sys2Proof.Machine.execVscvt st d a x s
  | .mxmac st a b c => Sys2Proof.Machine.execMxmac st a b c s
  | .mxmul st a b c => Sys2Proof.Machine.execMxmul st a b c s
  | .mxdrain st a b => Sys2Proof.Machine.execMxdrain st a b s
  | .mxzero st a => Sys2Proof.Machine.execMxzero st a s
  | .acld st a b => Sys2Proof.Machine.execAcld st a b s
  | .acst st a b => Sys2Proof.Machine.execAcst st a b s
  | .mxcfg st a => Sys2Proof.Machine.execMxcfg st a s
  | .mxscl st a b => Sys2Proof.Machine.execMxscl st a b s
  | .fmtset st n a => Sys2Proof.Machine.execFmtset st n a s
  | .fmtget st d n => Sys2Proof.Machine.execFmtget st d n s
  | .send st a => Sys2Proof.Machine.execSend st a s
  | .recv st a => Sys2Proof.Machine.execRecv st a s
  | .probe st d a => Sys2Proof.Machine.execProbe st d a s
  | .mbwait st a b => Sys2Proof.Machine.execMbwait st a b s
  | .mcast st a => Sys2Proof.Machine.execMcast st a s
  | .copy st a => Sys2Proof.Machine.execCopy st a s
  | .cwait st d a b => Sys2Proof.Machine.execCwait st d a b s
  | .cmap st a b => Sys2Proof.Machine.execCmap st a b s
  | .spawn st d a => Sys2Proof.Machine.execSpawn st d a s
  | .exit st => Sys2Proof.Machine.execExit st s
  | .join st a => Sys2Proof.Machine.execJoin st a s
  | .leave st a => Sys2Proof.Machine.execLeave st a s
  | .gbar st a tide => Sys2Proof.Machine.execGbar st a tide s
  | .gang st size role => Sys2Proof.Machine.execGang st size role s
  | .split st a => Sys2Proof.Machine.execSplit st a s
  | .vtadv st a => Sys2Proof.Machine.execVtadv st a s
  | .topen st d a b => Sys2Proof.Machine.execTopen st d a b s
  | .tclose st d => Sys2Proof.Machine.execTclose st d s
  | .csrr st d n => Sys2Proof.Machine.execCsrr st d n s
  | .csrw st d a n => Sys2Proof.Machine.execCsrw st d a n s
  | .trap st code => Sys2Proof.Machine.execTrap st code s
  | .tret st => Sys2Proof.Machine.execTret st s
  | .registerWriteLanding t => Sys2Proof.Machine.execRegisterWriteLanding t s
  | .divideComplete t => Sys2Proof.Machine.execDivideComplete t s
  | .fpDivSqrtComplete t => Sys2Proof.Machine.execFpDivSqrtComplete t s
  | .fpexcParkEnd t => Sys2Proof.Machine.execFpexcParkEnd t s
  | .loadResponse a => Sys2Proof.Machine.execLoadResponse a s
  | .storePerformed a id => Sys2Proof.Machine.execStorePerformed a id s
  | .feReexamine id => Sys2Proof.Machine.execFeReexamine id s
  | .feChangeReexamine cell => Sys2Proof.Machine.execFeChangeReexamine cell s
  | .feRetry t => Sys2Proof.Machine.execFeRetry t s
  | .heldStoreRelease t id => Sys2Proof.Machine.execHeldStoreRelease t id s
  | .tcloseCloseInstant t => Sys2Proof.Machine.execTcloseCloseInstant t s
  | .overrun t => Sys2Proof.Machine.execOverrun t s
  | .handlerOverrun t => Sys2Proof.Machine.execHandlerOverrun t s
  | .storeLost t => Sys2Proof.Machine.execStoreLost t s
  | .globalRequestArrival r => Sys2Proof.Machine.execGlobalRequestArrival r s
  | .globalResponseArrival r => Sys2Proof.Machine.execGlobalResponseArrival r s
  | .deliveryBoundExpiry peer seq => Sys2Proof.Machine.execDeliveryBoundExpiry peer seq s
  | .requestResend peer seq => Sys2Proof.Machine.execRequestResend peer seq s
  | .niRetry peer seq => Sys2Proof.Machine.execNiRetry peer seq s
  | .migrationAnswer t peer fits => Sys2Proof.Machine.execMigrationAnswer t peer fits s
  | .migrationLanding c => Sys2Proof.Machine.execMigrationLanding c s
  | .spawnPlacement t => Sys2Proof.Machine.execSpawnPlacement t s
  | .minTreeSample => Sys2Proof.Machine.execMinTreeSample s
  | .lwmPublication => Sys2Proof.Machine.execLwmPublication s
  | .domainLwmSample => Sys2Proof.Machine.execDomainLwmSample s
  | .domainLwmPublication asid others => Sys2Proof.Machine.execDomainLwmPublication asid others s
  | .detAtomicAccept t => Sys2Proof.Machine.execDetAtomicAccept t s
  | .detAtomicApply channel => Sys2Proof.Machine.execDetAtomicApply channel s
  | .scFenceComplete t => Sys2Proof.Machine.execScFenceComplete t s
  | .barrierComplete asid group => Sys2Proof.Machine.execBarrierComplete asid group s
  | .barrierArrivalNotice asid group peer n => Sys2Proof.Machine.execBarrierArrivalNotice asid group peer n s
  | .barrierCompletionNotice asid group maxVtime => Sys2Proof.Machine.execBarrierCompletionNotice asid group maxVtime s
  | .matrixStart row => Sys2Proof.Machine.execMatrixStart row s
  | .matrixComplete row => Sys2Proof.Machine.execMatrixComplete row s
  | .headerArrival h => Sys2Proof.Machine.execHeaderArrival h s
  | .headerResend id => Sys2Proof.Machine.execHeaderResend id s
  | .sendBoundExpiry id => Sys2Proof.Machine.execSendBoundExpiry id s
  | .abandonNotice asid srank drank n => Sys2Proof.Machine.execAbandonNotice asid srank drank n s
  | .pullRequest p => Sys2Proof.Machine.execPullRequest p s
  | .packetLanding id q data => Sys2Proof.Machine.execPacketLanding id q data s
  | .statusFill id => Sys2Proof.Machine.execStatusFill id s
  | .copyRequestArrival id => Sys2Proof.Machine.execCopyRequestArrival id s
  | .streamerRetry id => Sys2Proof.Machine.execStreamerRetry id s
  | .scaleTilePlace id => Sys2Proof.Machine.execScaleTilePlace id s
  | .chunkLanding id c => Sys2Proof.Machine.execChunkLanding id c s
  | .crossbarPacketArrival src port seq op => Sys2Proof.Machine.execCrossbarPacketArrival src port seq op s
  | .ebbStart => Sys2Proof.Machine.execEbbStart s
  | .ebbEnd => Sys2Proof.Machine.execEbbEnd s
  | .uncorrectableError site => Sys2Proof.Machine.execUncorrectableError site s
  | .scrub site corrected => Sys2Proof.Machine.execScrub site corrected s
  | .counterSnapshot => Sys2Proof.Machine.execCounterSnapshot s
  | .contextFatalEnd asid => Sys2Proof.Machine.execContextFatalEnd asid s
  | .contextEndNotice asid cause origin val => Sys2Proof.Machine.execContextEndNotice asid cause origin val s
  | .preemption asid => Sys2Proof.Machine.execPreemption asid s
  | .restore asid => Sys2Proof.Machine.execRestore asid s
  | .queuePacketStart => Sys2Proof.Machine.execQueuePacketStart s
  | .launch q => Sys2Proof.Machine.execLaunch q s
  | .fencePacket q => Sys2Proof.Machine.execFencePacket q s
  | .fencePacketPass q => Sys2Proof.Machine.execFencePacketPass q s
  | .signal q => Sys2Proof.Machine.execSignal q s
  | .signalWrite q => Sys2Proof.Machine.execSignalWrite q s
  | .pin q => Sys2Proof.Machine.execPin q s
  | .unpin q => Sys2Proof.Machine.execUnpin q s
  | .viewdef q => Sys2Proof.Machine.execViewdef q s
  | .codeload q => Sys2Proof.Machine.execCodeload q s
  | .detlvl q => Sys2Proof.Machine.execDetlvl q s
  | .slotplan q => Sys2Proof.Machine.execSlotplan q s
  | .dispatch k => Sys2Proof.Machine.execDispatch k s
  | .threadCreation k => Sys2Proof.Machine.execThreadCreation k s
  | .flitReceive link f => Sys2Proof.Machine.execFlitReceive link f s
  | .replayResend link lack => Sys2Proof.Machine.execReplayResend link lack s
  | .lanePrecorrectionError link lane count => Sys2Proof.Machine.execLanePrecorrectionError link lane count s
  | .laneWindowStart => Sys2Proof.Machine.execLaneWindowStart s
  | .laneHandback link lane => Sys2Proof.Machine.execLaneHandback link lane s
  | .trainAttemptEnd link lane ok => Sys2Proof.Machine.execTrainAttemptEnd link lane ok s
  | .laneReturn link lane => Sys2Proof.Machine.execLaneReturn link lane s
  | .linkLockLoss link => Sys2Proof.Machine.execLinkLockLoss link s
  | .linkFail link => Sys2Proof.Machine.execLinkFail link s
  | .spareAttach port => Sys2Proof.Machine.execSpareAttach port s
  | .spareLock link ok => Sys2Proof.Machine.execSpareLock link ok s
  | .drain port => Sys2Proof.Machine.execDrain port s
  | .relock port => Sys2Proof.Machine.execRelock port s
  | .pcmdReserved port => Sys2Proof.Machine.execPcmdReserved port s
  | .drainMarkerArrival port => Sys2Proof.Machine.execDrainMarkerArrival port s
  | .portDark port => Sys2Proof.Machine.execPortDark port s
  | .darklimExpiry port => Sys2Proof.Machine.execDarklimExpiry port s
  | .relockLock port => Sys2Proof.Machine.execRelockLock port s
  | .relockFail port other => Sys2Proof.Machine.execRelockFail port other s
  | .holdNotice peer port => Sys2Proof.Machine.execHoldNotice peer port s
  | .releaseNotice peer port => Sys2Proof.Machine.execReleaseNotice peer port s
  | .ptcmd => Sys2Proof.Machine.execPtcmd s
  | .powerRemoval => Sys2Proof.Machine.execPowerRemoval s
  | .alignmentLoss => Sys2Proof.Machine.execAlignmentLoss s
  | .kBlockBoundary row => Sys2Proof.Machine.execKBlockBoundary row s
  | .saveComplete asid => Sys2Proof.Machine.execSaveComplete asid s
  | .restoreReady asid => Sys2Proof.Machine.execRestoreReady asid s
  | .rendezvousPullRead id len => Sys2Proof.Machine.execRendezvousPullRead id len s
  | .acceptanceReply id => Sys2Proof.Machine.execAcceptanceReply id s
  | .qtailWrite q val => Sys2Proof.Machine.execQtailWrite q val s
  | .qctlEnable q val => Sys2Proof.Machine.execQctlEnable q val s
  | .qctlDisable q => Sys2Proof.Machine.execQctlDisable q s
  | .qctlResume q => Sys2Proof.Machine.execQctlResume q s
  | .qctlResumeSkip q => Sys2Proof.Machine.execQctlResumeSkip q s
  | .qcancel q val => Sys2Proof.Machine.execQcancel q val s
  | .qstatRead q => Sys2Proof.Machine.execQstatRead q s
  | .powerUp => Sys2Proof.Machine.execPowerUp s
  | .resetRelease => Sys2Proof.Machine.execResetRelease s
  | .bootgo r => Sys2Proof.Machine.execBootgo r s
  | .apply p => Sys2Proof.Machine.execApply p s
  | .clear p => Sys2Proof.Machine.execClear p s
  | .mapout row => Sys2Proof.Machine.execMapout row s
  | .mapin row => Sys2Proof.Machine.execMapin row s
  | .ucode r => Sys2Proof.Machine.execUcode r s
  | .partcmdReserved val => Sys2Proof.Machine.execPartcmdReserved val s
  | .create vf asid mgmt => Sys2Proof.Machine.execCreate vf asid mgmt s
  | .destroy vf asid => Sys2Proof.Machine.execDestroy vf asid s
  | .attestationRequest fn => Sys2Proof.Machine.execAttestationRequest fn s
  | .acceptWrite vf n val => Sys2Proof.Machine.execAcceptWrite vf n val s
  | .laneclrWrite val => Sys2Proof.Machine.execLaneclrWrite val s
  | .dboundWrite val => Sys2Proof.Machine.execDboundWrite val s
  | .lthreshWrite val => Sys2Proof.Machine.execLthreshWrite val s
  | .thermalSample tj => Sys2Proof.Machine.execThermalSample tj s
  | .thermRead => Sys2Proof.Machine.execThermRead s
  | .hostRead space off size => Sys2Proof.Machine.execHostRead space off size s
  | .hostWrite vf off bytes => Sys2Proof.Machine.execHostWrite vf off bytes s
  | .registerWrite fn off val => Sys2Proof.Machine.execRegisterWrite fn off val s

end Sys2Proof.Machine
end

