-- ==== Sys2Proof/Machine/Step.lean ====
section
/-! DEFINITION. One step of the package: an event of the present tick, the issue of one core, or the next tick. -/

namespace Sys2Proof.Machine

/-- One core's issue (R339): the chosen thread's boundary, then the instruction it fetches. -/
def issueCore (s : State) (core : Nat) : Host.Outcome State Fault Refusal :=
  match s.choose core with
  | (none, _) => .next s
  | (some th, c) =>
    let s1 := (s.putCore core c).putThread th.takeForward
    let s2 := { s1 with sched := { s1.sched with cur := some th.id } }
    s.orHoldBack th (match s2.fetch th.takeForward with
    | .cancelled => .next (s2.endCancelled th.id)
    | .lost => exec (.storeLost th.id) s2
    | .fatal cause v => .next (s2.fatalThread th.takeForward cause v (th.takeForward.fetchFault cause))
    | .illegal v => .next (s2.trap th.id .illegal v th.takeForward.pc)
    | .instr i w => exec i (s2.forward th w))

/-- One step; without power, or held in reset, nothing runs (R462). -/
def step (s : State) : Host.Outcome State Fault Refusal :=
  if !s.host.power || !s.host.running then .next s
  else
    match s.sched.agenda with
    | e :: r => exec e { s with sched := { s.sched with agenda := r, cur := none } }
    | [] =>
      match s.sched.turn with
      | c :: r => issueCore { s with sched := { s.sched with turn := r } } c
      | [] => .next s.nextTick

/-- The context that runs a word placed for the next step: live, every feature accepted, row 0 held, all code loaded. -/
def Ctx.forWord : Ctx :=
  { Ctx.blank with asid := 1, phase := .live, features := BitVec.allOnes 64, code := [(0, 0x40000)], clusters := [0],
                   rows := [0] }

/-- The kernel of that thread. -/
def Kernel.forWord : Kernel :=
  { lid := 0, queue := 0, asid := 1, tag := 0, entry := 0, xsize := 128, vsize := 32, wheel := 64, place := 0, exch := 0,
    count := 1, args := 0, vtstart := 0, cap := 2 ^ 32 - 1, plan := 0, planen := false, list := [], detlvl := 0,
    phase := .dispatched, cancel := false, placed := [(0, 0, 0, 0, BitVec.allOnes 64)], created := 1, dispatchTick := 0 }

/-- A thread on core 0, slot 0, that owns every wheel position, as a LAUNCH creates it (R45). -/
def Thread.forWord : Thread :=
  { newThread { core := 0, slot := 0 } 1 0 with
    xsize := 128, vsize := 32, wheel := BitVec.allOnes 64, gapUntil := 0 }

/-- The state in which the very next step fetches and runs the instruction whose bits are w: a loaded program of one
instruction and the thread that runs it (log 16). -/
def State.withFetchWord (s : State) (nbits w : Nat) : State :=
  { s with
    mem := { s.mem.writeN (codeKey 0 0) (tableBytes nbits w) with badCode := [] },
    ctxs := s.ctxs.put 1 Ctx.forWord,
    kernels := s.kernels.put 0 Kernel.forWord,
    threads := [(0, Thread.forWord)],
    cores := s.cores.erase 0,
    host := { s.host with power := true, running := true, boot := 3 },
    sched := { s.sched with agenda := [], timers := [], turn := [0], cur := none } }

end Sys2Proof.Machine
end

