-- ==== Sys2Proof/Safety.lean ====
section
/-! DEFINITION. What counts as a safe run, and the terms that claims about single instructions use. -/

namespace Sys2Proof.Machine

/-- The canonical form of memory: keys strictly rising, no entry equal to what an unlisted key reads as. -/
def Memory.wf (m : Memory) : Bool :=
  Tab.wfD m.bytes (0 : Byte) && Tab.wfD m.full false && Tab.wfD m.poison false

/-- Every thread stands in the table under its own name. -/
def State.keyed (s : State) : Bool := s.threads.all (fun e => e.1 == tkey e.2.id)

/-- The invariant of the machine: memory is canonical, and every thread stands under its own name. -/
def State.wf (s : State) : Bool := s.mem.wf && s.keyed

/-- What the other packages owe in time: a bounded access that has left, and does not wait at its target, is answered within its
worst case (R344; log 81). -/
def State.answeredInTime (s : State) : Bool :=
  s.ni.out.all (fun o => !(o.sent && o.req.bounded && o.req.target != s.ni.peer && !isWaiting o.req.op && o.req.det.isNone) ||
    s.ticks ≤ o.req.ts + s.globalBound o.req.target)

/-- A step is safe when it neither faults nor refuses. -/
def safeStep (s : State) : Bool :=
  match step s with
  | .next _ => true
  | .fault _ => false
  | .refused _ => false

/-- The current thread t, with record th in context c, passes every check made before an instruction with these operands
issues: its feature is accepted (R96), its registers lie in the window (R15), no open stall pair falls short (R103). -/
structure Issues (s : State) (t : Tid) (th : Thread) (c : Ctx) (feat : Option Nat) (o : Opnds) : Prop where
  cur     : s.sched.cur = some t
  thread  : s.thread? t = some th
  context : s.ctx? th.asid = some c
  feature : ∀ f, feat = some f → bit c.features f = true
  window  : ∀ r ∈ o.fields, windowFault th r = none
  stalls  : th.csr.chk = true → ∀ r ∈ o.reads ++ o.writes, shortfall th r = 0

/-- The state in which the thread has issued and nothing else has happened (R77). -/
def State.issuedBy (s : State) (th : Thread) (st : Stall) (o : Opnds) : State := s.putThread (th.issued s.ticks st o)

/-- The state in which the thread has issued and writes of the instruction's latency are pending (R101). -/
def State.wrote (s : State) (th : Thread) (st : Stall) (o : Opnds) (ds : List Dst) : State :=
  ds.foldl (fun a d => a.writeReg th.id o.lat d) (s.issuedBy th st o)

end Sys2Proof.Machine
end

