-- ==== Sys2Proof/Certificates/Slice0/Obligations.lean ====
section
/-! DEFINITION. The statements about the machine that the provers settle. -/

section Statements

open Sys2Proof Sys2Proof.Machine

/-! ### Scalar integer instructions (spec 04) -/

/-- R105: the two-operand operations write xd, with the integer-ALU latency of 4 ticks. -/
def Sys2Proof.Statements.IntegerRegisterResults : Prop :=
  ∀ (s : State) (t : Tid) (th : Thread) (c : Ctx) (st : Stall) (d a b : XReg), Issues s t th c none (.dab d a b 4) →
    let x := th.getX a
    let y := th.getX b
    let writes := fun (v : W64) => Host.Outcome.next (s.wrote th st (.dab d a b 4) [.x d v])
    exec (.add st d a b) s = writes (x + y) ∧ exec (.sub st d a b) s = writes (x - y) ∧
    exec (.and st d a b) s = writes (x &&& y) ∧ exec (.or st d a b) s = writes (x ||| y) ∧
    exec (.xor st d a b) s = writes (x ^^^ y) ∧ exec (.andn st d a b) s = writes (x &&& ~~~y) ∧
    exec (.sll st d a b) s = writes (x <<< (y.toNat % 64)) ∧ exec (.srl st d a b) s = writes (x >>> (y.toNat % 64)) ∧
    exec (.sra st d a b) s = writes (x.sshiftRight (y.toNat % 64)) ∧
    exec (.slt st d a b) s = writes (if x.toInt < y.toInt then 1 else 0) ∧
    exec (.sltu st d a b) s = writes (if x.toNat < y.toNat then 1 else 0) ∧
    exec (.min st d a b) s = writes (if x.toInt ≤ y.toInt then x else y) ∧
    exec (.max st d a b) s = writes (if x.toInt ≥ y.toInt then x else y)

/-- R105: CLZ, CTZ and POPC write the counts that describe xa; SEXT and ZEXT extend its low bits; CMOV writes xd in both
cases. -/
def Sys2Proof.Statements.BitCountExtendMoveResults : Prop :=
  (∀ (s : State) (t : Tid) (th : Thread) (c : Ctx) (st : Stall) (d a : XReg), Issues s t th c none (.da d a 4) →
    let x := th.getX a
    let writes := fun (v : W64) => Host.Outcome.next (s.wrote th st (.da d a 4) [.x d v])
    (∃ n, n ≤ 64 ∧ (∀ i, 64 - n ≤ i → i < 64 → x.getLsbD i = false) ∧ (n < 64 → x.getLsbD (63 - n) = true) ∧
      exec (.clz st d a) s = writes (BitVec.ofNat 64 n)) ∧
    (∃ n, n ≤ 64 ∧ (∀ i, i < n → x.getLsbD i = false) ∧ (n < 64 → x.getLsbD n = true) ∧
      exec (.ctz st d a) s = writes (BitVec.ofNat 64 n)) ∧
    exec (.popc st d a) s = writes (BitVec.ofNat 64 ((List.range 64).countP (fun i => x.getLsbD i))) ∧
    exec (.sext st d a .b) s = writes ((x.setWidth 8).signExtend 64) ∧
    exec (.sext st d a .h) s = writes ((x.setWidth 16).signExtend 64) ∧
    exec (.sext st d a .w) s = writes ((x.setWidth 32).signExtend 64) ∧
    exec (.zext st d a .b) s = writes ((x.setWidth 8).setWidth 64) ∧
    exec (.zext st d a .h) s = writes ((x.setWidth 16).setWidth 64) ∧
    exec (.zext st d a .w) s = writes ((x.setWidth 32).setWidth 64)) ∧
  (∀ (s : State) (t : Tid) (th : Thread) (c : Ctx) (st : Stall) (d a b : XReg), Issues s t th c none (.ddab d a b 4) →
    exec (.cmov st d a b) s =
      .next (s.wrote th st (.ddab d a b 4) [.x d (if th.getX b ≠ 0 then th.getX a else th.getX d)]))

/-- R106: MUL writes bits 63 to 0 of the product, MULH and MULHU bits 127 to 64 of the exact signed and unsigned product,
with a latency of 6; none of them sets a flag; they are the words of OP 0x02 with FN 0, 1 and 2. -/
def Obligations.MultiplyResults : Prop :=
  (∀ (s : State) (t : Tid) (th : Thread) (c : Ctx) (st : Stall) (d a b : XReg), Issues s t th c none (.dab d a b 6) →
    let x := th.getX a
    let y := th.getX b
    let writes := fun (v : W64) => Host.Outcome.next (s.wrote th st (.dab d a b 6) [.x d v])
    exec (.mul st d a b) s = writes ((x.setWidth 128 * y.setWidth 128).setWidth 64) ∧
    exec (.mulh st d a b) s = writes ((x.signExtend 128 * y.signExtend 128).extractLsb' 64 64) ∧
    exec (.mulhu st d a b) s = writes ((x.setWidth 128 * y.setWidth 128).extractLsb' 64 64)) ∧
  (∀ (st : Stall) (d a b : XReg), encode (.mul st d a b) = some (encXR st 0x02 d a b 0) ∧
    encode (.mulh st d a b) = some (encXR st 0x02 d a b 1) ∧ encode (.mulhu st d a b) = some (encXR st 0x02 d a b 2)) ∧
  encode (.mulhu 0 12 4 5) = some 0x0218102A

/-- R107: a division parks the thread, and ends 24 ticks after its issue; a zero divisor gives quotient 0 and remainder xa,
or with FCSR.IDE = 1 the precise trap INTDIV with TVAL xa. -/
def Sys2Proof.Statements.DivideResults : Prop :=
  ∀ (s : State) (t : Tid) (th : Thread) (c : Ctx) (st : Stall) (d a b : XReg), Issues s t th c none (.dab d a b 0) →
    let x := th.getX a
    let y := th.getX b
    let parks := fun (v : W64) => Host.Outcome.next
      (((s.issuedBy th st (.dab d a b 0)).park th.id (.divide d v)).after_ 24 rankLand (.divideComplete th.id))
    (¬(y = 0 ∧ bit th.csr.fcsr 16 = true) →
      exec (.div st d a b) s = parks (if y = 0 then 0 else BitVec.ofInt 64 (x.toInt.tdiv y.toInt)) ∧
      exec (.rem st d a b) s = parks (if y = 0 then x else BitVec.ofInt 64 (x.toInt.tmod y.toInt)) ∧
      exec (.divu st d a b) s = parks (if y = 0 then 0 else x / y) ∧
      exec (.remu st d a b) s = parks (if y = 0 then x else x % y)) ∧
    (y = 0 → bit th.csr.fcsr 16 = true →
      exec (.div st d a b) s = .next (s.trap t .intdiv x th.pc) ∧ exec (.rem st d a b) s = .next (s.trap t .intdiv x th.pc) ∧
      exec (.divu st d a b) s = .next (s.trap t .intdiv x th.pc) ∧ exec (.remu st d a b) s = .next (s.trap t .intdiv x th.pc))

/-- R108, R109: the immediate forms, LI and LIM, with a latency of 4, and their words: a shift amount above 63, or bit 16 of a LIM, is
no instruction. -/
def Obligations.ImmediateResults : Prop :=
  (∀ (s : State) (t : Tid) (th : Thread) (c : Ctx) (st : Stall) (d a : XReg), Issues s t th c none (.da d a 4) →
    let x := th.getX a
    let writes := fun (v : W64) => Host.Outcome.next (s.wrote th st (.da d a 4) [.x d v])
    (∀ n : BitVec 10, exec (.addi st d a n) s = writes (x + n.signExtend 64) ∧
      exec (.andi st d a n) s = writes (x &&& n.signExtend 64) ∧ exec (.ori st d a n) s = writes (x ||| n.setWidth 64)) ∧
    (∀ n : BitVec 6, exec (.slli st d a n) s = writes (x <<< n.toNat) ∧ exec (.srli st d a n) s = writes (x >>> n.toNat) ∧
      exec (.srai st d a n) s = writes (x.sshiftRight n.toNat))) ∧
  (∀ (s : State) (t : Tid) (th : Thread) (c : Ctx) (st : Stall) (d : XReg) (n : BitVec 17), Issues s t th c none (.d d 4) →
    exec (.li st d n) s = .next (s.wrote th st (.d d 4) [.x d (n.signExtend 64)])) ∧
  (∀ (s : State) (t : Tid) (th : Thread) (c : Ctx) (st : Stall) (d : XReg) (n : BitVec 16), Issues s t th c none (.dd d 4) →
    exec (.lim st d n) s = .next (s.wrote th st (.dd d 4) [.x d ((th.getX d <<< 16) ||| n.setWidth 64)])) ∧
  (∀ (st : Stall) (d a : XReg) (n : BitVec 10), encode (.addi st d a n) = some (encXI st 0x05 d a n) ∧
    encode (.andi st d a n) = some (encXI st 0x06 d a n) ∧ encode (.ori st d a n) = some (encXI st 0x07 d a n)) ∧
  (∀ (st : Stall) (d a : XReg) (n : BitVec 6), encode (.slli st d a n) = some (encXI st 0x08 d a (n.setWidth 10)) ∧
    encode (.srli st d a n) = some (encXI st 0x09 d a (n.setWidth 10)) ∧
    encode (.srai st d a n) = some (encXI st 0x0A d a (n.setWidth 10))) ∧
  (∀ (st : Stall) (d : XReg), (∀ n : BitVec 17, encode (.li st d n) = some (encLI st 0x0B d n)) ∧
    ∀ n : BitVec 16, encode (.lim st d n) = some (encLI st 0x0C d (n.setWidth 17))) ∧
  (∀ w : W32, (w.extractLsb' 24 6 = 0x08 ∨ w.extractLsb' 24 6 = 0x09 ∨ w.extractLsb' 24 6 = 0x0A → w.extractLsb' 6 4 ≠ 0 →
      ∃ e, decode w = .error e) ∧
    (w.extractLsb' 24 6 = 0x0C → w.getLsbD 16 = true → ∃ e, decode w = .error e))

/-- R105, R107: the integer register operations, the counts, extensions and CMOV, and the divisions. -/
def Obligations.IntegerResults : Prop :=
  Statements.IntegerRegisterResults ∧ Statements.BitCountExtendMoveResults ∧ Statements.DivideResults

/-! ### Control transfer and traps (spec 04, 08, 16) -/

/-- R87: the condition of a branch. -/
def Sys2Proof.Statements.branchCond (c : Cond) (x : W64) : Prop :=
  match c with
  | .eqz => x = 0
  | .nez => x ≠ 0
  | .ltz => x.toInt < 0
  | .gez => x.toInt ≥ 0
  | .gtz => x.toInt > 0
  | .lez => x.toInt ≤ 0
  | .odd => x.toNat % 2 = 1
  | .even => x.toNat % 2 = 0

/-- The transfers that a thread's instruction makes: stall code, operands, target and register writes (R110 to R112,
R224). -/
inductive Sys2Proof.Statements.Transfers (th : Thread) : Instr → Stall → Opnds → W64 → List Dst → Prop where
  | b (st c a off) (h : Statements.branchCond c (th.getX a)) :
      Transfers th (.b st c a off) st (.rd [a]) (BitVec.ofNat 64 th.pc + off.signExtend 64 * 4) []
  | dbnz (st a off) (h : th.getX a ≠ 1) :
      Transfers th (.dbnz st a off) st (.dd a 4) (BitVec.ofNat 64 th.pc + off.signExtend 64 * 4) [.x a (th.getX a - 1)]
  | j (st d off) :
      Transfers th (.j st d off) st (.d d 4) (BitVec.ofNat 64 th.pc + off.signExtend 64 * 4)
        [.x d (BitVec.ofNat 64 (th.pc + 4))]
  | jr (st d a n) :
      Transfers th (.jr st d a n) st (.da d a 4) (th.getX a + n.signExtend 64) [.x d (BitVec.ofNat 64 (th.pc + 4))]
  | tret (st) : Transfers th (.tret st) st .none (th.csr.tepc &&& 0x3FFFC) []

/-- R110 to R113, R115, R224: a transfer goes to its target and writes its link or count; a follower writes it and takes
the leader's direction; a misaligned target traps with ALIGN, a target without loaded code is PROTECT, and nothing is
written. -/
def Sys2Proof.Statements.TransfersGoToTheirTarget : Prop :=
  ∀ (s : State) (t : Tid) (th : Thread) (c : Ctx) (i : Instr) (st : Stall) (o : Opnds) (tgt : W64) (ds : List Dst),
    Statements.Transfers th i st o tgt ds → Issues s t th c none o →
    (th.isFollower = false → tgt.toNat % 4 = 0 → c.loaded tgt.toNat = true →
      exec i s = .next (ds.foldl (fun a w => a.writeReg th.id 4 w)
        ((s.issuedBy th st o).modThread th.id (fun u => { u with pc := tgt.toNat })))) ∧
    (th.isFollower = true →
      exec i s = .next (ds.foldl (fun a w => a.writeReg th.id 4 w) (s.issuedBy th st o))) ∧
    (th.isFollower = false → tgt.toNat % 4 ≠ 0 → exec i s = .next (s.trap t .align tgt th.pc)) ∧
    (th.isFollower = false → tgt.toNat % 4 = 0 → c.loaded tgt.toNat = false →
      exec i s = .next (s.trap t .protect tgt th.pc))

/-- R110, R111, R113: a branch that is not taken goes on at pc + 4 and checks no target; DBNZ still writes the count. -/
def Sys2Proof.Statements.BranchesNotTaken : Prop :=
  ∀ (s : State) (t : Tid) (th : Thread) (c : Ctx) (st : Stall) (a : XReg) (off : BitVec 14),
    (∀ k, ¬Statements.branchCond k (th.getX a) → Issues s t th c none (.rd [a]) →
      exec (.b st k a off) s = .next (s.issuedBy th st (.rd [a]))) ∧
    (th.getX a = 1 → Issues s t th c none (.dd a 4) →
      exec (.dbnz st a off) s = .next (s.wrote th st (.dd a 4) [.x a 0]))

/-- R223: TRAP takes TRAPINSN with its code in TVAL and its own address in TEPC; a word of TRAP with a nonzero XD or XA is
no instruction. -/
def Obligations.TrapInstruction : Prop :=
  (∀ (s : State) (t : Tid) (th : Thread) (c : Ctx) (st : Stall) (code : BitVec 10), Issues s t th c none .none →
    exec (.trap st code) s = .next (s.trap t .trapinsn (code.setWidth 64) th.pc) ∧
    (th.id = t → th.gang = .none → th.csr.tvec.getLsbD 0 = true → ∃ s' u, exec (.trap st code) s = .next s' ∧
      s'.thread? t = some u ∧ u.csr.tcause.toNat % 2 ^ 8 = 0x12 ∧ u.csr.tval.toNat = code.toNat ∧
      u.csr.tepc.toNat = th.pc / 4 % 2 ^ 16 * 4)) ∧
  (∀ w : W32, w.extractLsb' 24 6 = 0x32 → w.extractLsb' 10 14 ≠ 0 → ∃ e, decode w = .error e) ∧
  (∀ w : W32, w.extractLsb' 24 6 = 0x32 → w.extractLsb' 10 14 = 0 →
    decode w = .ok (.trap (w.extractLsb' 30 2) (w.extractLsb' 0 10)))

/-- R222, R348, R350: a trap that is not fatal, of a thread outside a gang with TVEC.EN = 1, writes TEPC, TCAUSE and TVAL,
goes to TVEC.ADDR × 4, issues again no earlier than 8 ticks later, and changes no register, VTIME or region. -/
def Sys2Proof.Statements.TrapEntry : Prop :=
  ∀ (s : State) (t : Tid) (th : Thread) (k : Cause) (v : W64) (epc : Nat), s.thread? t = some th → th.gang = .none →
    th.csr.tvec.getLsbD 0 = true → k ≠ .protect → k ≠ .noxlate → k ≠ .handleroverrun →
    ∃ u, s.trap t k v epc = s.putThread u ∧
      u.csr.tepc.toNat = epc / 4 % 2 ^ 16 * 4 ∧
      u.csr.tcause.toNat = k.code + (if th.regions = [] then 0 else 256) ∧
      u.csr.tval = v ∧
      u.pc = th.csr.tvec.toNat / 4 % 2 ^ 16 * 4 ∧
      u.run = .ready ∧ u.gapUntil = s.ticks + 8 ∧
      u.x = th.x ∧ u.v = th.v ∧ u.m = th.m ∧ u.fm = th.fm ∧ u.regions = th.regions ∧ u.pend = th.pend ∧
      u.sbuf = th.sbuf ∧
      { u.csr with tepc := th.csr.tepc, tcause := th.csr.tcause, tval := th.csr.tval } = th.csr

/-- R25, R351: with TVEC.EN = 0, or of a fatal cause, a trap of a thread outside a gang stops the thread, leaves its trap
registers, and notes the fault of the live context with the cause, address and value; the context ends at the next tick. -/
def Sys2Proof.Statements.FatalTrap : Prop :=
  ∀ (s : State) (t : Tid) (th : Thread) (c : Ctx) (k : Cause) (v : W64) (epc : Nat), s.thread? t = some th → th.id = t →
    th.gang = .none → s.ctx? th.asid = some c → c.phase = .live → c.faults = [] →
    (th.csr.tvec.getLsbD 0 = false ∨ k = .protect ∨ k = .noxlate ∨ k = .handleroverrun) →
    ∃ f : FaultRec, f.cause = k ∧ f.val = v ∧ f.epc = epc ∧ f.tid = some t ∧ f.tick = s.ticks ∧
      s.trap t k v epc =
        ((s.putThread { th with run := .stopped }).modCtx th.asid (fun x => { x with faults := x.faults ++ [f] })).after_ 1
          rankFault (.contextFatalEnd th.asid)

/-- R97, R15, R96, R103: of the checks before an instruction's own effect the first that fails decides the trap: the feature bit, then a
register outside the window, then an open stall pair; nothing else happens. That the first register outside the window, in the order
of the fields, names TVAL is the model's choice (log 19), and so is that STALLCHK comes after WINDOW and reports the greatest shortfall
of the register's open pairs (log 20). -/
def Obligations.ChecksBeforeIssue : Prop :=
  ∀ (s : State) (t : Tid) (th : Thread) (c : Ctx) (st : Stall) (feat : Option Nat) (o : Opnds)
    (body : State → Thread → Effect), s.sched.cur = some t → s.thread? t = some th → s.ctx? th.asid = some c →
    let lacks := fun n => feat = some n ∧ c.features.getLsbD n = false
    let outside := fun (l : List RegRef) (r : RegRef) (l' : List RegRef) =>
      o.fields = l ++ r :: l' ∧ (∀ q ∈ l, windowFault th q = none)
    (∀ n, lacks n → issue s st feat o body = .next (s.trap t .feature (BitVec.ofNat 64 n) th.pc)) ∧
    ((∀ n, ¬lacks n) → ∀ l (r : XReg) l', outside l (.x r) l' → th.xsize ≤ r.toNat →
      issue s st feat o body = .next (s.trap t .window (BitVec.ofNat 64 r.toNat) th.pc)) ∧
    ((∀ n, ¬lacks n) → ∀ l (r : VReg) l', outside l (.v r) l' → th.vsize ≤ r.toNat →
      issue s st feat o body = .next (s.trap t .window (BitVec.ofNat 64 (r.toNat + 128)) th.pc)) ∧
    ((∀ n, ¬lacks n) → (∀ q ∈ o.fields, windowFault th q = none) → th.csr.chk = true →
      ∀ l r l', o.reads ++ o.writes = l ++ r :: l' → (∀ q ∈ l, shortfall th q = 0) → 0 < shortfall th r →
        issue s st feat o body =
          .next (s.trap t .stallchk (BitVec.ofNat 64 (stallName r + shortfall th r * 2 ^ 32)) th.pc))

/-- R110 to R115, R224: branches and jumps, taken and not taken, and TRET. -/
def Obligations.ControlTransfers : Prop :=
  Statements.TransfersGoToTheirTarget ∧ Statements.BranchesNotTaken

/-- R25, R222, R346, R348, R350, R351: what taking a trap does, and when it is fatal. -/
def Obligations.TrapsAreTaken : Prop :=
  Statements.TrapEntry ∧ Statements.FatalTrap

/-! ### Scalar floating point (spec 05, 06) -/

/-- R124, R127: the scalar instructions that may take FPEXC with a fixed latency: stall code, operands, destination, result
and the flags raised. -/
def Sys2Proof.Statements.scalarFloat (th : Thread) (i : Instr) : Option (Stall × Opnds × XReg × W64 × Flags) :=
  let arg := fun (f : FFmt) (r : XReg) => (th.getX r).toNat % 2 ^ f.width
  let reg := fun (r : FRes) => BitVec.ofNat 64 r.code
  let two := fun (st : Stall) (d a b : XReg) (f : FFmt) (lat : Nat) (g : FEnv → Nat → Nat → FRes) =>
    some (st, Opnds.dab d a b lat, d, reg (g th.fenv (arg f a) (arg f b)), (g th.fenv (arg f a) (arg f b)).fl)
  let cmp := fun (st : Stall) (d a b : XReg) (f : FFmt) (lat : Nat) (nv : Bool) =>
    some (st, Opnds.dab d a b lat, d,
      match f.compare th.fenv (arg f a) (arg f b) with
      | some .lt => BitVec.ofInt 64 (-1)
      | some .eq => 0
      | some .gt => 1
      | none => 2,
      if nv then flNV else 0)
  match i with
  | .faddS st d a b => two st d a b .single 6 FFmt.single.add
  | .fsubS st d a b => two st d a b .single 6 FFmt.single.sub
  | .fmulS st d a b => two st d a b .single 6 FFmt.single.mul
  | .fminS st d a b => two st d a b .single 6 (fun v x y => FFmt.single.minMax v false x y)
  | .fmaxS st d a b => two st d a b .single 6 (fun v x y => FFmt.single.minMax v true x y)
  | .faddD st d a b => two st d a b .double 8 FFmt.double.add
  | .fsubD st d a b => two st d a b .double 8 FFmt.double.sub
  | .fmulD st d a b => two st d a b .double 8 FFmt.double.mul
  | .fminD st d a b => two st d a b .double 8 (fun v x y => FFmt.double.minMax v false x y)
  | .fmaxD st d a b => two st d a b .double 8 (fun v x y => FFmt.double.minMax v true x y)
  | .fmaS st d a b =>
    let r := FFmt.single.fma th.fenv (arg .single a) (arg .single b) (arg .single d)
    some (st, .ddab d a b 6, d, reg r, r.fl)
  | .fmaD st d a b =>
    let r := FFmt.double.fma th.fenv (arg .double a) (arg .double b) (arg .double d)
    some (st, .ddab d a b 8, d, reg r, r.fl)
  | .fcmpS st d a b =>
    cmp st d a b .single 6 (FFmt.single.isSnan (arg .single a) || FFmt.single.isSnan (arg .single b))
  | .fcmpeS st d a b =>
    cmp st d a b .single 6 (FFmt.single.isNan (arg .single a) || FFmt.single.isNan (arg .single b))
  | .fcmpD st d a b =>
    cmp st d a b .double 8 (FFmt.double.isSnan (arg .double a) || FFmt.double.isSnan (arg .double b))
  | .fcmpeD st d a b =>
    cmp st d a b .double 8 (FFmt.double.isNan (arg .double a) || FFmt.double.isNan (arg .double b))
  | .fcvt st d a src dst sat =>
    let r := fcvtValue th.fenv src dst sat (th.getX a)
    some (st, .da d a (if src = .f64 ∨ dst = .f64 then 8 else 6), d, r.1, r.2)
  | .fround st d a rm p =>
    let f := match p with | .h => FFmt.half | .bf => FFmt.bf16 | .s => FFmt.single | .d => FFmt.double
    let mode := match rm with
      | .rne => Rm.rne | .rtz => Rm.rtz | .rdn => Rm.rdn | .rup => Rm.rup | .rmm => Rm.rmm | .dyn => th.fenv.rm
    let r := f.roundIntegral { th.fenv with rm := mode } (arg f a)
    some (st, .da d a (if p = .d then 8 else 6), d, reg r, r.fl)
  | _ => none

/-- R124: the end of an instruction with writes ds and raised flags fl: the writes land after the latency and the flags
with them; with an enable of FCSR set the thread parks for the latency; a raised flag that is enabled traps with FPEXC, after
every raised flag went into FCSR, and nothing is written. kind is 32 for a vector instruction, else 0. -/
def Sys2Proof.Statements.floatEnd (s : State) (th : Thread) (i : Instr) (st : Stall) (o : Opnds) (ds : List Dst) (fl : Flags)
    (kind : W64) : Prop :=
  let bits : W64 := fl.setWidth 64 <<< 3
  let done := (s.wrote th st o ds).setFlags th.id (s.ticks + o.lat) bits
  (th.enables = 0 → exec i s = .next done) ∧
  (th.enables ≠ 0 → fl &&& th.enables = 0 →
    exec i s = .next ((done.park th.id .fpPark).after_ o.lat rankLand (.fpexcParkEnd th.id))) ∧
  (fl &&& th.enables ≠ 0 →
    exec i s = .next (((s.issuedBy th st o).modThread th.id (·.apply (.flags bits))).trap th.id .fpexc
      (fl.setWidth 64 + kind) th.pc))

/-- R124, R127, R146, R147, R149, R151, R153: the scalar floating-point instructions of fixed latency, to their end. -/
def Sys2Proof.Statements.ScalarFloatOperations : Prop :=
  ∀ (s : State) (t : Tid) (th : Thread) (c : Ctx) (i : Instr) (st : Stall) (o : Opnds) (d : XReg) (v : W64) (fl : Flags),
    Statements.scalarFloat th i = some (st, o, d, v, fl) → Issues s t th c none o →
    Statements.floatEnd s th i st o [.x d v] fl 0

/-- R100, R124, R146: FDIV and FSQRT park the thread, 20 ticks at .S and 32 at .D, with the result and flags of their
operands at issue. -/
def Sys2Proof.Statements.FloatDivideRootPark : Prop :=
  ∀ (s : State) (t : Tid) (th : Thread) (c : Ctx) (st : Stall) (d a b : XReg),
    let x := fun (f : FFmt) => (th.getX a).toNat % 2 ^ f.width
    let y := fun (f : FFmt) => (th.getX b).toNat % 2 ^ f.width
    let parks := fun (o : Opnds) (ticks : Nat) (r : FRes) => Host.Outcome.next
      (((s.issuedBy th st o).park th.id (.fpEnd [.x d (BitVec.ofNat 64 r.code)] r.fl)).after_ ticks rankLand
        (.fpDivSqrtComplete th.id))
    (Issues s t th c none (.dab d a b 0) →
      exec (.fdivS st d a b) s = parks (.dab d a b 0) 20 (FFmt.single.div th.fenv (x .single) (y .single)) ∧
      exec (.fdivD st d a b) s = parks (.dab d a b 0) 32 (FFmt.double.div th.fenv (x .double) (y .double))) ∧
    (Issues s t th c none (.da d a 0) →
      exec (.fsqrtS st d a) s = parks (.da d a 0) 20 (FFmt.single.sqrt th.fenv (x .single)) ∧
      exec (.fsqrtD st d a) s = parks (.da d a 0) 32 (FFmt.double.sqrt th.fenv (x .double)))

/-- R124, R150, R152: FCLASS writes the one bit of its operand's class and FSGN changes only the sign bit; bits above the
format are zero, and neither raises a flag; like every instruction of class FPC they end as R124 says. -/
def Sys2Proof.Statements.ClassifyAndSign : Prop :=
  ∀ (s : State) (t : Tid) (th : Thread) (c : Ctx) (st : Stall) (d a : XReg) (p : FPrec),
    let eb := match p with | .h => 5 | .bf => 8 | .s => 8 | .d => 11
    let mb := match p with | .h => 10 | .bf => 7 | .s => 23 | .d => 52
    let w := 1 + eb + mb
    let lat := if p = .d then 8 else 6
    let ends := fun (i : Instr) (v : W64) => Statements.floatEnd s th i st (.da d a lat) [.x d v] 0 0
    let x := th.getX a &&& (BitVec.allOnes 64 >>> (64 - w))
    let sign : W64 := 1#64 <<< (w - 1)
    let ex := x.toNat / 2 ^ mb % 2 ^ eb
    let man := x.toNat % 2 ^ mb
    Issues s t th c none (.da d a lat) →
      ends (.fclass st d a p) (1#64 <<<
        (if ex = 2 ^ eb - 1 then (if man ≠ 0 then (if man < 2 ^ (mb - 1) then 8 else 9) else if x &&& sign ≠ 0 then 0 else 7)
         else if ex = 0 ∧ man = 0 then (if x &&& sign ≠ 0 then 3 else 4)
         else if ex = 0 then (if x &&& sign ≠ 0 then 2 else 5)
         else (if x &&& sign ≠ 0 then 1 else 6))) ∧
      ends (.fsgn st d a .abs p) (x &&& ~~~sign) ∧
      ends (.fsgn st d a .neg p) (x ^^^ sign) ∧
      ends (.fsgn st d a .nabs p) (x ||| sign)

/-- R120, R122: rounding a nonzero magnitude to a whole number of units. With E twice the exact magnitude in the finer
unit (one more when a rest is left) and D the coarser unit on that scale, the number chosen is the one the mode names, and
it is inexact exactly when it is not the exact value. -/
def Obligations.RoundingChoosesTheModesNumber : Prop :=
  ∀ (rm : Rm) (neg : Bool) (m : Nat) (e : Int) (rest : Bool) (q : Int), e < q →
    let E := 2 * m + (if rest then 1 else 0)
    let D := 2 * 2 ^ (q - e).toNat
    let n := (roundAt rm neg m e rest q).1
    ((roundAt rm neg m e rest q).2 = true ↔ n * D ≠ E) ∧
    (rm = .rne → 2 * n * D ≤ 2 * E + D ∧ 2 * E ≤ 2 * n * D + D ∧
      (2 * n * D = 2 * E + D ∨ 2 * E = 2 * n * D + D → n % 2 = 0)) ∧
    (rm = .rmm → 2 * n * D ≤ 2 * E + D ∧ 2 * E < 2 * n * D + D) ∧
    (rm = .rtz ∨ rm = .rdn ∧ neg = false ∨ rm = .rup ∧ neg = true → n * D ≤ E ∧ E < (n + 1) * D) ∧
    (rm = .rdn ∧ neg = true ∨ rm = .rup ∧ neg = false → E ≤ n * D ∧ n * D < E + D)

/-- R100, R124, R127, R146 to R153: the scalar floating-point instructions. -/
def Obligations.ScalarFloatResults : Prop :=
  Statements.ScalarFloatOperations ∧ Statements.FloatDivideRootPark ∧ Statements.ClassifyAndSign

/-! ### Vectors (spec 06) -/

/-- Lane i of w bits (R154). -/
def Sys2Proof.Statements.lane (w : Nat) (v : V512) (i : Nat) : BitVec w := v.extractLsb' (w * i) w

/-- The lane-wise integer instructions and what they make of a lane of w bits (R160). -/
def Sys2Proof.Statements.vectorInt : Instr →
    Option (Stall × VReg × VReg × VReg × MReg × VIType × ((w : Nat) → BitVec w → BitVec w → BitVec w))
  | .vadd st d a b m t => some (st, d, a, b, m, t, fun _ x y => x + y)
  | .vsub st d a b m t => some (st, d, a, b, m, t, fun _ x y => x - y)
  | .vmul st d a b m t => some (st, d, a, b, m, t, fun _ x y => x * y)
  | .vmin st d a b m t => some (st, d, a, b, m, t, fun _ x y => if x.toInt ≤ y.toInt then x else y)
  | .vmax st d a b m t => some (st, d, a, b, m, t, fun _ x y => if y.toInt ≤ x.toInt then x else y)
  | .vand st d a b m t => some (st, d, a, b, m, t, fun _ x y => x &&& y)
  | .vor st d a b m t => some (st, d, a, b, m, t, fun _ x y => x ||| y)
  | .vxor st d a b m t => some (st, d, a, b, m, t, fun _ x y => x ^^^ y)
  | .vsll st d a b m t => some (st, d, a, b, m, t, fun w x y => x <<< (y.toNat % w))
  | .vsrl st d a b m t => some (st, d, a, b, m, t, fun w x y => x >>> (y.toNat % w))
  | .vsra st d a b m t => some (st, d, a, b, m, t, fun w x y => x.sshiftRight (y.toNat % w))
  | _ => none

/-- R100, R154, R160: lane i of vd becomes the operation of the lanes i, modulo 2^w, where the mask enables it; every other
lane keeps its bits. The write lands after 4 ticks and no flag is raised. -/
def Obligations.VectorIntegerResults : Prop :=
  ∀ (s : State) (t : Tid) (th : Thread) (c : Ctx) (i : Instr) (st : Stall) (d a b : VReg) (m : MReg) (ty : VIType)
    (g : (w : Nat) → BitVec w → BitVec w → BitVec w),
    Statements.vectorInt i = some (st, d, a, b, m, ty, g) → Issues s t th c (some 0) (.vdab d a b m 4) →
    let w := match ty with | .i8 => 8 | .i16 => 16 | .i32 => 32 | .i64 => 64
    ∃ mask val : V512, exec i s = .next (s.wrote th st (.vdab d a b m 4) [.v d mask val]) ∧
      ∀ k, k < 512 / w →
        (if (th.getM m).getLsbD k then
          Statements.lane w mask k = BitVec.allOnes w ∧
            Statements.lane w val k = g w (Statements.lane w (th.getV a) k) (Statements.lane w (th.getV b) k)
         else Statements.lane w mask k = 0)

/-- The lane-wise float instructions: operands, lane width and the result of lane k (R161). -/
def Sys2Proof.Statements.vectorFloat (th : Thread) (i : Instr) :
    Option (Stall × Opnds × VReg × MReg × Nat × (Nat → FRes)) :=
  let fmt := fun (t : VFType) => match t with
    | .f16 => FFmt.half | .bf16 => FFmt.bf16 | .f32 => FFmt.single | .f64 => FFmt.double
  let at_ := fun (t : VFType) (r : VReg) (k : Nat) => (Statements.lane (fmt t).width (th.getV r) k).toNat
  let two := fun (st : Stall) (d a b : VReg) (m : MReg) (t : VFType) (g : FEnv → Nat → Nat → FRes) =>
    some (st, Opnds.vdab d a b m 8, d, m, (fmt t).width, fun k => g th.fenv (at_ t a k) (at_ t b k))
  match i with
  | .vfadd st d a b m t => two st d a b m t (fmt t).add
  | .vfsub st d a b m t => two st d a b m t (fmt t).sub
  | .vfmul st d a b m t => two st d a b m t (fmt t).mul
  | .vfmin st d a b m t => two st d a b m t (fun v x y => (fmt t).minMax v false x y)
  | .vfmax st d a b m t => two st d a b m t (fun v x y => (fmt t).minMax v true x y)
  | .vfma st d a b m t =>
    some (st, .vddab d a b m 8, d, m, (fmt t).width, fun k => (fmt t).fma th.fenv (at_ t a k) (at_ t b k) (at_ t d k))
  | _ => none

/-- R124, R154, R156, R161: each enabled lane is the scalar operation of its lanes; the flags are the OR over the enabled
lanes. -/
def Sys2Proof.Statements.VectorFloatLanes : Prop :=
  ∀ (s : State) (t : Tid) (th : Thread) (c : Ctx) (i : Instr) (st : Stall) (o : Opnds) (d : VReg) (m : MReg) (w : Nat)
    (r : Nat → FRes),
    Statements.vectorFloat th i = some (st, o, d, m, w, r) → Issues s t th c (some 0) o →
    ∃ (mask val : V512) (fl : Flags), Statements.floatEnd s th i st o [.v d mask val] fl 32 ∧
      (∀ k, k < 512 / w →
        (if (th.getM m).getLsbD k then
          Statements.lane w mask k = BitVec.allOnes w ∧ Statements.lane w val k = BitVec.ofNat w (r k).code
         else Statements.lane w mask k = 0)) ∧
      ∀ n, fl.getLsbD n = true ↔ ∃ k, k < 512 / w ∧ (th.getM m).getLsbD k = true ∧ (r k).fl.getLsbD n = true

/-- R155, R162, R163: VFCMP writes bits 0 to n − 1 of its mask, 0 for a disabled lane; VFCVT converts lanes between float
formats and writes zero above them. -/
def Sys2Proof.Statements.VectorCompareAndConvert : Prop :=
  ∀ (s : State) (t : Tid) (th : Thread) (c : Ctx) (st : Stall) (a b : VReg) (m : MReg),
    let fmt := fun (t : VFType) => match t with
      | .f16 => FFmt.half | .bf16 => FFmt.bf16 | .f32 => FFmt.single | .f64 => FFmt.double
    (∀ (g : MReg) (p : FPred) (ty : VFType),
      let f := fmt ty
      let n := 512 / f.width
      let x := fun k => (Statements.lane f.width (th.getV a) k).toNat
      let y := fun k => (Statements.lane f.width (th.getV b) k).toNat
      let o : Opnds := ⟨[.v a, .v b, .m m], [.v a, .v b, .m m], [.m g], 8⟩
      Issues s t th c (some 0) o →
      ∃ (bits : W64) (fl : Flags),
        Statements.floatEnd s th (.vfcmp st g p a b m ty) st o [.m g (BitVec.ofNat 64 (2 ^ n - 1)) bits] fl 32 ∧
        (∀ k, k < n → (bits.getLsbD k = true ↔ (th.getM m).getLsbD k = true ∧
          match p with
          | .eq => f.compare th.fenv (x k) (y k) = some .eq
          | .lt => f.compare th.fenv (x k) (y k) = some .lt
          | .le => f.compare th.fenv (x k) (y k) = some .lt ∨ f.compare th.fenv (x k) (y k) = some .eq
          | .un => f.compare th.fenv (x k) (y k) = none)) ∧
        (fl ≠ 0 ↔ ∃ k, k < n ∧ (th.getM m).getLsbD k = true ∧
          if p = .lt ∨ p = .le then f.isNan (x k) = true ∨ f.isNan (y k) = true
          else f.isSnan (x k) = true ∨ f.isSnan (y k) = true) ∧
        (fl ≠ 0 → fl = flNV)) ∧
    (∀ (d : VReg) (src dst : VFType), Issues s t th c (some 0) (.vda d a m 8) →
      let ws := (fmt src).width
      let wd := (fmt dst).width
      let r := fun k => (fmt src).convert (fmt dst) th.fenv (Statements.lane ws (th.getV a) k).toNat
      ∃ (mask val : V512) (fl : Flags),
        Statements.floatEnd s th (.vfcvt st d a m dst src) st (.vda d a m 8) [.v d mask val] fl 32 ∧
        (∀ k, k < 512 / wd →
          if 512 / ws ≤ k then Statements.lane wd mask k = BitVec.allOnes wd ∧ Statements.lane wd val k = 0
          else if (th.getM m).getLsbD k then
            Statements.lane wd mask k = BitVec.allOnes wd ∧ Statements.lane wd val k = BitVec.ofNat wd (r k).code
          else Statements.lane wd mask k = 0))

/-- R164, R165: a reduction writes lane 0 and zeroes the other lanes; over integers it is the sum of the enabled lanes modulo
2^w, or the largest of them (the most negative value when none is enabled); over floats it is the tree of R165, and a sum
with an enabled NaN lane is the lowest-numbered such lane, quieted (R129). -/
def Obligations.VectorReductions : Prop :=
  ∀ (s : State) (t : Tid) (th : Thread) (c : Ctx) (st : Stall) (d a : VReg) (m : MReg),
    Issues s t th c (some 0) (.vda d a m 8) →
    let writes := fun (v : V512) => Host.Outcome.next (s.wrote th st (.vda d a m 8) [.v d (BitVec.allOnes 512) v])
    let on := fun k => (th.getM m).getLsbD k
    (∀ ty w, (ty, w) ∈ [(VPType.i8, 8), (.i16, 16), (.i32, 32), (.i64, 64)] →
      let x := fun k => Statements.lane w (th.getV a) k
      exec (.vredadd st d a m ty) s = writes (((List.range (512 / w)).foldl (fun n k => if on k then n + x k else n) 0).setWidth 512) ∧
      ∃ r : BitVec w, exec (.vredmax st d a m ty) s = writes (r.setWidth 512) ∧
        (∀ k, k < 512 / w → on k = true → (x k).toInt ≤ r.toInt) ∧
        ((∃ k, k < 512 / w ∧ on k = true ∧ x k = r) ∨
          (∀ k, k < 512 / w → on k = false) ∧ r = BitVec.intMin w)) ∧
    (∀ ty f, (ty, f) ∈ [(VPType.f16, FFmt.half), (.bf16, .bf16), (.f32, .single), (.f64, .double)] →
      let x := fun k => (Statements.lane f.width (th.getV a) k).toNat
      let sum := reduceSum f th.fenv (512 / f.width) (th.getM m) x
      let top := reduceTop f th.fenv (512 / f.width) (th.getM m) x
      (∀ k, k < 512 / f.width → on k = true → f.isNan (x k) = true → (∀ j, j < k → on j = true → f.isNan (x j) = false) →
        sum.code = f.quiet (x k)) ∧
      Statements.floatEnd s th (.vredadd st d a m ty) st (.vda d a m 8)
        [.v d (BitVec.allOnes 512) (BitVec.ofNat 512 sum.code)] sum.fl 32 ∧
      Statements.floatEnd s th (.vredmax st d a m ty) st (.vda d a m 8)
        [.v d (BitVec.allOnes 512) (BitVec.ofNat 512 top.code)] top.fl 32)

/-- The width of a lane type (R90). -/
def Sys2Proof.Statements.laneWidth : VPType → Nat
  | .i8 => 8 | .i16 => 16 | .i32 => 32 | .i64 => 64 | .f16 => 16 | .bf16 => 16 | .f32 => 32 | .f64 => 64

/-- R155, R164, R166: the moves between lanes, masks and x registers, lane by lane. -/
def Obligations.VectorMoves : Prop :=
  ∀ (s : State) (t : Tid) (th : Thread) (c : Ctx) (st : Stall) (d a b : VReg) (m : MReg) (x : XReg),
    let lane := Statements.lane
    (∀ ty, Issues s t th c (some 0) (.vdab d a b m 8) →
      let w := Statements.laneWidth ty
      (∃ mask val : V512, exec (.vshuf st d a b m ty) s = .next (s.wrote th st (.vdab d a b m 8) [.v d mask val]) ∧
        ∀ k, k < 512 / w →
          (if (th.getM m).getLsbD k then lane w mask k = BitVec.allOnes w ∧
            lane w val k = lane w (th.getV a) ((lane w (th.getV b) k).toNat % (512 / w)) else lane w mask k = 0)) ∧
      ∃ val : V512, exec (.vmerge st d a b m ty) s = .next (s.wrote th st (.vdab d a b m 8) [.v d (BitVec.allOnes 512) val]) ∧
        ∀ k, k < 512 / w → lane w val k = if (th.getM m).getLsbD k then lane w (th.getV a) k else lane w (th.getV b) k) ∧
    (∀ (g : MReg) ty, Issues s t th c (some 0) ⟨[.v a, .m m], [.v a, .m m], [.m g], 8⟩ →
      let w := Statements.laneWidth ty
      ∃ bits : W64, exec (.vmask st g a m ty) s = .next (s.wrote th st ⟨[.v a, .m m], [.v a, .m m], [.m g], 8⟩
          [.m g (BitVec.ofNat 64 (2 ^ (512 / w) - 1)) bits]) ∧
        ∀ k, k < 512 / w → (bits.getLsbD k = true ↔ (th.getM m).getLsbD k = true ∧
          (if ty ∈ [VPType.f16, .bf16, .f32, .f64] then (lane w (th.getV a) k).toNat % 2 ^ (w - 1) ≠ 0
           else lane w (th.getV a) k ≠ 0))) ∧
    (∀ e w, (e, w) ∈ [(ESz.b, 8), (.h, 16), (.w, 32), (.d, 64)] →
      (Issues s t th c (some 0) ⟨[.v d, .x x], [.x x], [.v d], 8⟩ →
        ∃ val : V512, exec (.vbcast st d x e) s =
            .next (s.wrote th st ⟨[.v d, .x x], [.x x], [.v d], 8⟩ [.v d (BitVec.allOnes 512) val]) ∧
          ∀ k, k < 512 / w → lane w val k = (th.getX x).setWidth w) ∧
      (∀ n : BitVec 6, n.toNat < 512 / w → Issues s t th c (some 0) ⟨[.v a, .x x], [.v a], [.x x], 8⟩ →
        exec (.vext st x a e n) s = .next (s.wrote th st ⟨[.v a, .x x], [.v a], [.x x], 8⟩
          [.x x ((lane w (th.getV a) n.toNat).setWidth 64)])) ∧
      (∀ n : BitVec 6, n.toNat < 512 / w → Issues s t th c (some 0) ⟨[.v d, .x x], [.v d, .x x], [.v d], 8⟩ →
        ∃ mask val : V512, exec (.vins st d x e n) s =
            .next (s.wrote th st ⟨[.v d, .x x], [.v d, .x x], [.v d], 8⟩ [.v d mask val]) ∧
          ∀ k, k < 512 / w → (if k = n.toNat then lane w mask k = BitVec.allOnes w ∧ lane w val k = (th.getX x).setWidth w
            else lane w mask k = 0))) ∧
    (∀ (n : BitVec 13) ty, Issues s t th c (some 0) ⟨[.v d], [], [.v d], 8⟩ →
      let w := Statements.laneWidth ty
      ∃ val : V512, exec (.vbcasti st d n ty) s = .next (s.wrote th st ⟨[.v d], [], [.v d], 8⟩ [.v d (BitVec.allOnes 512) val]) ∧
        (ty ∈ [VPType.i8, .i16, .i32, .i64] → ∀ k, k < 512 / w → lane w val k = (n.signExtend 64).setWidth w) ∧
        (ty = .f16 → ∀ k, k < 512 / w → lane w val k =
          if n.toNat / 2 ^ 7 % 2 ^ 5 = 31 ∧ n.toNat % 2 ^ 7 ≠ 0 then (n.setWidth w <<< 3) ||| 0x200 else n.setWidth w <<< 3) ∧
        (∀ f, (ty, f) ∈ [(VPType.f16, FFmt.half), (.bf16, .bf16), (.f32, .single), (.f64, .double)] → ∀ k, k < 512 / w →
          lane w val k = BitVec.ofNat w (FFmt.half.convert f { rm := .rne, ftz := false, daz := false } (n.toNat * 8)).code))

/-- R167 to R169: VSDOT adds the scaled dot of four bytes to every FP32 lane with one rounding; VSCVT writes the 16 scaled
lanes as bytes of the quarter that xb[33:32] names. -/
def Sys2Proof.Statements.ScaledDotAndConvert : Prop :=
  ∀ (s : State) (t : Tid) (th : Thread) (c : Ctx) (st : Stall) (d a b : VReg) (x : XReg),
    let byte := fun (r : VReg) k => (Statements.lane 8 (th.getV r) k).toInt
    let word := fun (r : VReg) k => (Statements.lane 32 (th.getV r) k).toNat
    let s0 := (th.getX x).toNat % 2 ^ 32
    let s1 := (th.getX x).toNat / 2 ^ 32
    (let o : Opnds := ⟨[.v d, .v a, .v b, .x x], [.v d, .v a, .v b, .x x], [.v d], 8⟩
     Issues s t th c (some 0) o →
      let dot := fun j => byte a (4 * j) * byte b (4 * j) + byte a (4 * j + 1) * byte b (4 * j + 1) +
        byte a (4 * j + 2) * byte b (4 * j + 2) + byte a (4 * j + 3) * byte b (4 * j + 3)
      let r := fun j => sdotLane th.fenv (dot j) s0 s1 (word d j)
      ∃ (val : V512) (fl : Flags),
        Statements.floatEnd s th (.vsdot st d a b x) st o [.v d (BitVec.allOnes 512) val] fl 32 ∧
        (∀ j, j < 16 → Statements.lane 32 val j = BitVec.ofNat 32 (r j).code) ∧
        ∀ n, fl.getLsbD n = true ↔ ∃ j, j < 16 ∧ (r j).fl.getLsbD n = true) ∧
    (let o : Opnds := ⟨[.v d, .v a, .x x], [.v a, .x x], [.v d], 8⟩
     Issues s t th c (some 0) o →
      let q := s1 % 4
      let r := fun j => scvtLane th.fenv (word a j) s0
      ∃ (mask val : V512) (fl : Flags),
        Statements.floatEnd s th (.vscvt st d a x) st o [.v d mask val] fl 32 ∧
        (∀ k, k < 64 → if k / 16 = q then Statements.lane 8 mask k = BitVec.allOnes 8 ∧
            Statements.lane 8 val k = BitVec.ofInt 8 (r (k % 16)).1 else Statements.lane 8 mask k = 0) ∧
        ∀ n, fl.getLsbD n = true ↔ ∃ j, j < 16 ∧ (r j).2.getLsbD n = true)

/-- R124, R154 to R156, R161 to R163, R167 to R169: the vector floating-point instructions. -/
def Obligations.VectorFloatResults : Prop :=
  Statements.VectorFloatLanes ∧ Statements.VectorCompareAndConvert ∧ Statements.ScaledDotAndConvert

/-! ### Memory, full/empty accesses, atomics and fences (spec 01, 07, 12) -/

/-- The parts of an access of n bytes that are performed indivisibly, as offset and size: the elements that it covers through a
view other than the bit-plane view, else the whole access (R288, R295, R314, R315). -/
def Sys2Proof.Statements.parts (c : Ctx) (a : W64) (n : Nat) : List (Nat × Nat) :=
  let e := match c.view? a with
    | some v => if a.getLsbD 63 = false ∧ a.toNat / 2 ^ 61 % 4 = 2 ∧ a.toNat / 2 ^ 47 % 4 ≠ 3 then min v.e n else n
    | none => n
  (List.range (n / e)).map (fun i => (i * e, e))

/-- A lane, or a part of one, that has still to be performed. -/
def Sys2Proof.Statements.lane1 (c : Ctx) (core lane : Nat) (a : W64) (n : Nat) (op : CellOp) (bit : Nat) : Lane :=
  { lane := lane, addr := a, locs := locsOf c core a n, op := op, bit := bit, sent := none, cover := [], atUnit := false,
    pois := [], val := none, back := false, fail := none }

/-- The parts of a load of n bytes for one lane, each with its place in the destination. -/
def Sys2Proof.Statements.loadParts (c : Ctx) (core lane : Nat) (a : W64) (n bit : Nat) : List Lane :=
  (Statements.parts c a n).map (fun p =>
    Statements.lane1 c core lane (a + BitVec.ofNat 64 p.1) p.2 (.load p.2) (bit + 8 * p.1))

/-- A part of a store that has still to be performed. -/
def Sys2Proof.Statements.part1 (c : Ctx) (core : Nat) (a : W64) (n : Nat) (op : CellOp) : StorePart :=
  { addr := a, locs := locsOf c core a n, op := op, out := false, sent := none, done := false, acked := false }

/-- The parts of a store of the low n bytes of a value, each with its bytes of it. -/
def Sys2Proof.Statements.storeParts (c : Ctx) (core : Nat) (a : W64) (n : Nat) (v : W64) : List StorePart :=
  (Statements.parts c a n).map (fun p => Statements.part1 c core (a + BitVec.ofNat 64 p.1) p.2
    (.store p.2 (BitVec.ofNat 64 (v.toNat / 2 ^ (8 * p.1) % 2 ^ (8 * p.2)))))

/-- The access that a load or atomic parks with (R174): PTE, FERETRY.LIMIT and the class are captured. -/
def Sys2Proof.Statements.access1 (th : Thread) (lanes : List Lane) (d : LoadDst) : Access :=
  { lanes := lanes, dst := d, pte := th.csr.fcsr.getLsbD 17, limit := th.csr.feretry.toNat,
    bounded := decide (0 < th.regions.length), ownDue := 0 }

/-- R40 to R42: which accesses of n bytes at a DRAM, local-store or reserved address violate R40. -/
def Obligations.AddressesThatViolateR40 : Prop :=
  ∀ (c : Ctx) (core : Nat) (a : W64) (n : Nat) (rd wr : Bool), a.getLsbD 63 = false →
    (a.toNat / 2 ^ 61 % 4 = 0 → (protectFault c core a n rd wr = false ↔ a.toNat / 2 ^ 39 % 2 ^ 22 = 0 ∧
      ∃ g ∈ c.segs, g.1.getLsbD 0 = true ∧ (rd = true → g.1.getLsbD 1 = true) ∧ (wr = true → g.1.getLsbD 2 = true) ∧
        g.1.toNat / 2 ^ 12 % 2 ^ 27 ≤ a.toNat % 2 ^ 39 / 4096 ∧
        (a.toNat % 2 ^ 39 + n - 1) / 4096 ≤ g.2.toNat / 2 ^ 12 % 2 ^ 27)) ∧
    (a.toNat / 2 ^ 61 % 4 = 1 → n ≤ 8 →
      let named := a.toNat / 2 ^ 48 % 2 ^ 13
      let owner := if named = 0x1FFF then core else named
      (protectFault c core a n rd wr = false ↔ a.toNat / 2 ^ 18 % 2 ^ 30 = 0 ∧ owner < 4608 ∧
        owner / 4 ∈ c.rows ∧ a.toNat % 2 ^ 18 < 0x30000)) ∧
    (a.toNat / 2 ^ 61 % 4 = 3 → protectFault c core a n rd wr = true)

/-- The loads: operands, address, size and sign (R174, R191). -/
def Sys2Proof.Statements.loads (th : Thread) : Instr → Option (Stall × XReg × XReg × W64 × Nat × Bool)
  | .ld st d a k off =>
    let z := match k with | .b => (1, true) | .h => (2, true) | .w => (4, true) | .d => (8, false) | .bu => (1, false)
                          | .hu => (2, false) | .wu => (4, false)
    some (st, d, a, th.getX a + off.signExtend 64 * BitVec.ofNat 64 z.1, z.1, z.2)
  | .ldaq st d a _ off => some (st, d, a, th.getX a + off.signExtend 64 * 8, 8, false)
  | _ => none

/-- R172, R174, R191, R315: LD and LDAQ check their address, and the thread parks with its access outstanding, in one part or, through
a view, one for each element that it covers. -/
def Sys2Proof.Statements.LoadsPark : Prop :=
  ∀ (s : State) (t : Tid) (th : Thread) (c : Ctx) (i : Instr) (st : Stall) (d a : XReg) (ad : W64) (n : Nat) (sg : Bool),
    Statements.loads th i = some (st, d, a, ad, n, sg) → Issues s t th c none (.da d a 0) →
    (s.addrFault c th.id.core ad n true false .plain = none →
      exec i s = .next ((s.issuedBy th st (.da d a 0)).sendAccess th.id
        (Statements.access1 th (Statements.loadParts c th.id.core 0 ad n 0) (.x d n sg)))) ∧
    (∀ k, s.addrFault c th.id.core ad n true false .plain = some k → exec i s = .next (s.trap t k ad th.pc))

/-- The stores: operands, address, size, what is done at the cell, alignment class, and whether it is a release (R175,
R179, R191). -/
def Sys2Proof.Statements.stores (th : Thread) : Instr → Option (Stall × XReg × XReg × W64 × Nat × CellOp × AccKind × Bool)
  | .st st d a k off =>
    let n := match k with | .b => 1 | .h => 2 | .w => 4 | .d => 8
    some (st, d, a, th.getX a + off.signExtend 64 * BitVec.ofNat 64 n, n, .store n (th.getX d), .plain, false)
  | .strl st d a _ off => some (st, d, a, th.getX a + off.signExtend 64 * 8, 8, .store 8 (th.getX d), .plain, true)
  | .sts st d a .fill off => some (st, d, a, th.getX a + off.signExtend 64 * 8, 8, .fill (th.getX d), .fe, true)
  | .sts st d a .clear off => some (st, d, a, th.getX a + off.signExtend 64 * 8, 8, .clear, .fe, false)
  | _ => none

/-- R172, R173, R175, R179, R191, R218: a store takes the last entry of the store buffer at issue, held while a HOLD region
is open; with 32 entries in use the thread parks with it; a failed address check traps and nothing is buffered. -/
def Sys2Proof.Statements.StoresEnterTheBuffer : Prop :=
  ∀ (s : State) (t : Tid) (th : Thread) (c : Ctx) (i : Instr) (st : Stall) (d a : XReg) (ad : W64) (n : Nat) (op : CellOp)
    (k : AccKind) (rel : Bool),
    Statements.stores th i = some (st, d, a, ad, n, op, k, rel) → Issues s t th c none (.rd [d, a]) →
    let e : StoreEntry :=
      { id := s.sched.ids,
        parts := match op with
          | .store _ v => Statements.storeParts c th.id.core ad n v
          | _ => [Statements.part1 c th.id.core ad n op],
        release := rel, held := th.holdDepth, rel := false, sent := false, ownDue := 0,
        bounded := decide (0 < th.regions.length), born := s.ticks }
    let s1 := (s.issuedBy th st (.rd [d, a])).fresh.2
    (s.addrFault c th.id.core ad n false true k = none →
      (th.sbuf.length < 32 → exec i s = .next (s1.addStore th.id e)) ∧
      (32 ≤ th.sbuf.length → exec i s = .next (s1.park th.id (.storeFull e)))) ∧
    (∀ f, s.addrFault c th.id.core ad n false true k = some f → exec i s = .next (s.trap t f ad th.pc))

/-- The accesses that wait for the thread's own buffered stores: operands, address, size, operation, rights, alignment class
and destination (R173, R178, R179, R184, R186). -/
def Sys2Proof.Statements.cellOps (th : Thread) :
    Instr → Option (Stall × Opnds × W64 × Nat × CellOp × Bool × AccKind × XReg)
  | .lds st d a .waitfull off => some (st, .da d a 0, th.getX a + off.signExtend 64 * 8, 8, .waitFull, false, .fe, d)
  | .lds st d a .take off => some (st, .da d a 0, th.getX a + off.signExtend 64 * 8, 8, .take, true, .fe, d)
  | .lds st d a .peek off => some (st, .da d a 0, th.getX a + off.signExtend 64 * 8, 8, .peek, false, .fe, d)
  | .sts st d a .putempty off =>
    some (st, .rd [d, a], th.getX a + off.signExtend 64 * 8, 8, .putEmpty (th.getX d), true, .fe, 0)
  | .cas st d a b .d => some (st, .ddab d a b 0, th.getX a, 8, .cas 8 (th.getX d) (th.getX b), true, .atomic, d)
  | .cas st d a b .w => some (st, .ddab d a b 0, th.getX a, 4, .cas 4 (th.getX d) (th.getX b), true, .atomic, d)
  | _ => none

/-- The atomic operations (R184, R185). -/
def Sys2Proof.Statements.amos : Instr → Option (Stall × XReg × XReg × XReg × AmoOp)
  | .amoAdd st d a b => some (st, d, a, b, .add)
  | .amoAnd st d a b => some (st, d, a, b, .and)
  | .amoOr st d a b => some (st, d, a, b, .or)
  | .amoXor st d a b => some (st, d, a, b, .xor)
  | .amoMin st d a b => some (st, d, a, b, .min)
  | .amoMax st d a b => some (st, d, a, b, .max)
  | .amoSwap st d a b => some (st, d, a, b, .swap)
  | .amoFadd st d a b => some (st, d, a, b, .fadd)
  | _ => none

/-- R172, R173, R178, R179, R186, R290: LDS, STS.PUTEMPTY and CAS park; the access sets out at once, or when the thread's
buffered stores to the cell are performed; PUTEMPTY, a release, when every earlier store that no region holds is, and every
earlier matrix instruction of the thread has read what it reads. -/
def Sys2Proof.Statements.CellAccessesPark : Prop :=
  ∀ (s : State) (t : Tid) (th : Thread) (c : Ctx) (i : Instr) (st : Stall) (o : Opnds) (ad : W64) (n : Nat) (op : CellOp)
    (both : Bool) (k : AccKind) (d : XReg),
    Statements.cellOps th i = some (st, o, ad, n, op, both, k, d) → Issues s t th c none o →
    let acc := Statements.access1 th [Statements.lane1 c th.id.core 0 ad n op 0] (.x d n false)
    let parked := (s.issuedBy th st o).park th.id (.ownStores acc)
    let waits := s.storesToCells th op (locsOf c th.id.core ad n) = true ∨ (∃ st a off, i = .sts st d a .putempty off) ∧
      ((∃ e ∈ th.sbuf, e.held = none) ∨ s.mxReads th.id s.sched.ids = true)
    (s.addrFault c th.id.core ad n true both k = none →
      (waits → exec i s = .next parked) ∧ (¬waits → exec i s = .next (parked.sendAccess th.id acc))) ∧
    (∀ f, s.addrFault c th.id.core ad n true both k = some f → exec i s = .next (s.trap t f ad th.pc))

/-- R172, R184, R185, R188: an AMO parks as those do; at DET1 and DET2 one that names local store is REFUSED, and any other
takes the thread's next number first. -/
def Sys2Proof.Statements.AtomicsPark : Prop :=
  ∀ (s : State) (t : Tid) (th : Thread) (c : Ctx) (i : Instr) (st : Stall) (d a b : XReg) (f : AmoOp),
    Statements.amos i = some (st, d, a, b, f) → Issues s t th c none (.dab d a b 0) →
    let ad := th.getX a
    let acc := Statements.access1 th [Statements.lane1 c th.id.core 0 ad 8 (.amo f (th.getX b)) 0] (.x d 8 false)
    let s0 := s.issuedBy th st (.dab d a b 0)
    let s1 := if th.csr.detlvl = 0 then s0 else s0.modThread th.id (fun u => { u with detCount := u.detCount + 1 })
    let parked := s1.park th.id (.ownStores acc)
    (s.addrFault c th.id.core ad 8 true true .atomic = none →
      ¬(th.csr.detlvl ≠ 0 ∧ ad.getLsbD 63 = false ∧ ad.toNat / 2 ^ 61 % 4 = 1) →
      (s.storesToCells th (.amo f (th.getX b)) (locsOf c th.id.core ad 8) = true → exec i s = .next parked) ∧
      (s.storesToCells th (.amo f (th.getX b)) (locsOf c th.id.core ad 8) = false → exec i s = .next (parked.sendAccess th.id acc))) ∧
    (s.addrFault c th.id.core ad 8 true true .atomic = none → th.csr.detlvl ≠ 0 → ad.getLsbD 63 = false →
      ad.toNat / 2 ^ 61 % 4 = 1 → exec i s = .next (s.trap t .refused ad th.pc)) ∧
    (∀ k, s.addrFault c th.id.core ad 8 true true .atomic = some k → exec i s = .next (s.trap t k ad th.pc))

/-- R192 to R194: FENCE parks until its conditions hold: those of its buffered stores that no region holds are performed, unless
it is FENCE.L, and its copies, messages and matrix instructions where its bits name them. One whose conditions hold completes
at once, and FENCE.SC is then announced and completes at the tick of R194. -/
def Sys2Proof.Statements.FenceCompletes : Prop :=
  ∀ (s : State) (t : Tid) (th : Thread) (c : Ctx) (st : Stall) (kind : FenceKind) (scope : Scope) (cpy msg mx : Bool),
    Issues s t th c none .none →
    let ids := (th.sbuf.filter (fun e => e.held.isNone)).map (·.id)
    let parked := (s.issuedBy th st .none).park th.id (.fence kind scope cpy msg mx ids)
    let ready := (kind = .load ∨ ∀ e ∈ th.sbuf, e.held ≠ none) ∧
      (cpy = true → ∀ r ∈ s.copies, r.own = true → r.pull = none → r.tid ≠ th.id) ∧
      (msg = true → ∀ m ∈ s.ni.sends, m.own = true → m.hdr.tid = th.id → m.counted = true) ∧
      (mx = true → ∀ r ∈ s.rows, ∀ f ∈ r.2.queue, th.id ∉ f.tids)
    let due := if scope = .dom then 2048 * (s.ticks / 2048 + 3) else 32 * (s.ticks / 32 + 2)
    (¬ready → exec (.fence st kind scope cpy msg mx) s = .next parked) ∧
    (ready → kind ≠ .sc →
      exec (.fence st kind scope cpy msg mx) s = .next (parked.wake th.id)) ∧
    (ready → kind = .sc →
      exec (.fence st kind scope cpy msg mx) s =
        .next ((parked.modThread th.id (fun u => { u with run := .parked (.scFence due) })).sched_ due rankLast
          (.scFenceComplete th.id)))

/-- R157 to R159, R315: the vector loads park with the parts of one lane for each enabled element, and the vector stores take one
store-buffer entry with those of each; VLD and VST check the whole block, VLDX and VSTX the enabled lanes in ascending order. -/
def Obligations.VectorMemoryAccesses : Prop :=
  ∀ (s : State) (t : Tid) (th : Thread) (c : Ctx) (st : Stall) (v b : VReg) (a : XReg) (m : MReg),
    let loads := Statements.loadParts c th.id.core
    let stores := Statements.storeParts c th.id.core
    let access := fun (ls : List Lane) => Statements.access1 th ls (.v v)
    (∀ (pair : Bool) (off : BitVec 6),
      let vs := if pair then [RegRef.v v, .v (v + 1)] else [.v v]
      let n := if pair then 128 else 64
      let ad := th.getX a + off.signExtend 64 * 64
      let on := (List.range (n / 8)).filter (fun j => (th.getM m).getLsbD j)
      let at_ := fun (j : Nat) => ad + BitVec.ofNat 64 (8 * j)
      (Issues s t th c (some 0) ⟨vs ++ [.x a, .m m], [.x a, .m m], vs, 0⟩ →
        (s.blockFault c th.id.core ad n false = none → exec (.vld st v a m pair off) s =
          .next ((s.issuedBy th st ⟨vs ++ [.x a, .m m], [.x a, .m m], vs, 0⟩).sendAccess th.id
            (access (on.flatMap (fun j => loads j (at_ j) 8 (64 * j)))))) ∧
        (∀ k, s.blockFault c th.id.core ad n false = some k → exec (.vld st v a m pair off) s = .next (s.trap t k ad th.pc))) ∧
      (Issues s t th c (some 0) ⟨vs ++ [.x a, .m m], vs ++ [.x a, .m m], [], 0⟩ →
        (s.blockFault c th.id.core ad n true = none → exec (.vst st v a m pair off) s =
          .next ((s.issuedBy th st ⟨vs ++ [.x a, .m m], vs ++ [.x a, .m m], [], 0⟩).store th.id (on.flatMap (fun j =>
            stores (at_ j) 8 (Statements.lane 64 (th.getV (v + BitVec.ofNat 5 (j / 8))) (j % 8)))) false)) ∧
        (∀ k, s.blockFault c th.id.core ad n true = some k → exec (.vst st v a m pair off) s = .next (s.trap t k ad th.pc)))) ∧
    (∀ e n f q, (e, n) ∈ [(ESz.b, 1), (.h, 2), (.w, 4), (.d, 8)] → (f, q) ∈ [(ESz.b, 1), (.h, 2), (.w, 4), (.d, 8)] →
      let at_ := fun (k : Nat) =>
        th.getX a + (Statements.lane (8 * n) (th.getV b) k).signExtend 64 * BitVec.ofNat 64 q
      let on := (List.range (64 / n)).filter (fun k => (th.getM m).getLsbD k)
      (Issues s t th c (some 0) ⟨[.v v, .v b, .x a, .m m], [.v b, .x a, .m m], [.v v], 0⟩ →
        (s.lanesFault c th.id.core n false (on.map at_) = none → exec (.vldx st v b a m e f) s =
          .next ((s.issuedBy th st ⟨[.v v, .v b, .x a, .m m], [.v b, .x a, .m m], [.v v], 0⟩).sendAccess th.id
            (access (on.flatMap (fun k => loads k (at_ k) n (8 * n * k)))))) ∧
        (∀ k x, s.lanesFault c th.id.core n false (on.map at_) = some (k, x) →
          exec (.vldx st v b a m e f) s = .next (s.trap t k x th.pc))) ∧
      (Issues s t th c (some 0) ⟨[.v v, .v b, .x a, .m m], [.v v, .v b, .x a, .m m], [], 0⟩ →
        (s.lanesFault c th.id.core n true (on.map at_) = none → exec (.vstx st v b a m e f) s =
          .next ((s.issuedBy th st ⟨[.v v, .v b, .x a, .m m], [.v v, .v b, .x a, .m m], [], 0⟩).store th.id (on.flatMap (fun k =>
            stores (at_ k) n ((Statements.lane (8 * n) (th.getV v) k).setWidth 64))) false)) ∧
        (∀ k x, s.lanesFault c th.id.core n true (on.map at_) = some (k, x) →
          exec (.vstx st v b a m e f) s = .next (s.trap t k x th.pc))))

/-- R174 to R187, R33, R34: what an access of n bytes inside one cell does when it is performed. A load changes nothing; a
store writes its bytes and no other; a cell operation tests and writes the full bit of its cell, and no other; a refused
condition changes nothing. Poisoned bytes read as zero. -/
def Sys2Proof.Statements.AccessesArePerformed : Prop :=
  ∀ (s : State) (k n : Nat) (pte : Bool), 0 < n → k % 8 + n ≤ 8 →
    let ps : List PLoc := (List.range n).map (fun i => .byte (k + i))
    let old := BitVec.ofNat 64 (leNat ((List.range n).map (fun i => s.mem.read (k + i))))
    let wrote := fun (s' : State) (v : W64) =>
      (∀ i, i < n → s'.mem.read (k + i) = v.extractLsb' (8 * i) 8) ∧
      (∀ x, ¬(k ≤ x ∧ x < k + n) → s'.mem.read x = s.mem.read x)
    let bits := fun (s' : State) (b : Bool) =>
      s'.mem.isFull (k / 8) = b ∧ ∀ x, x ≠ k / 8 → s'.mem.isFull x = s.mem.isFull x
    let same := fun (s' : State) => ∀ x, s'.mem.isFull x = s.mem.isFull x
    let full := s.mem.isFull (k / 8)
    let poisoned := s.mem.poisoned (k / 8)
    s.performAt ps (.load n) pte = (.value old poisoned, s) ∧
    (∀ v, (s.performAt ps (.store n v) pte).1 = .value 0 false ∧ wrote (s.performAt ps (.store n v) pte).2 v ∧
      same (s.performAt ps (.store n v) pte).2) ∧
    (full = true → s.performAt ps .waitFull pte = (.value old false, s) ∧
      (s.performAt ps .take pte).1 = .value old false ∧ bits (s.performAt ps .take pte).2 false ∧
      (∀ x, (s.performAt ps .take pte).2.mem.read x = s.mem.read x)) ∧
    (full = false → s.performAt ps .waitFull pte = (.fails, s) ∧ s.performAt ps .take pte = (.fails, s)) ∧
    s.performAt ps .peek pte = (.value (if full then 1 else 0) false, s) ∧
    (∀ v, (s.performAt ps (.fill v) pte).1 = .value 0 false ∧ wrote (s.performAt ps (.fill v) pte).2 v ∧
      bits (s.performAt ps (.fill v) pte).2 true) ∧
    (∀ v, full = false → (s.performAt ps (.putEmpty v) pte).1 = .value 0 false ∧
      wrote (s.performAt ps (.putEmpty v) pte).2 v ∧ bits (s.performAt ps (.putEmpty v) pte).2 true) ∧
    (∀ v, full = true → s.performAt ps (.putEmpty v) pte = (.fails, s)) ∧
    ((s.performAt ps .clear pte).1 = .value 0 false ∧ bits (s.performAt ps .clear pte).2 false ∧
      ∀ x, (s.performAt ps .clear pte).2.mem.read x = s.mem.read x) ∧
    (∀ f b, ¬(poisoned = true ∧ pte = true) → (s.performAt ps (.amo f b) pte).1 = .value old poisoned ∧
      wrote (s.performAt ps (.amo f b) pte).2 (amoFn f old b) ∧ same (s.performAt ps (.amo f b) pte).2) ∧
    (∀ e v, ¬(poisoned = true ∧ pte = true) → (s.performAt ps (.cas n e v) pte).1 = .value old poisoned ∧
      (old.toNat = e.toNat % 2 ^ (8 * n) → wrote (s.performAt ps (.cas n e v) pte).2 v) ∧
      (old.toNat ≠ e.toNat % 2 ^ (8 * n) → (s.performAt ps (.cas n e v) pte).2 = s)) ∧
    (∀ f b, poisoned = true → pte = true → s.performAt ps (.amo f b) pte = (.value 0 true, s))

/-- R184, R185: the functions of the atomics; FADD keeps bits 63 to 32 and adds the FP32 values below, in round-to-nearest. -/
def Sys2Proof.Statements.AtomicFunctions : Prop :=
  ∀ o b : W64, amoFn .add o b = o + b ∧ amoFn .and o b = o &&& b ∧ amoFn .or o b = o ||| b ∧ amoFn .xor o b = o ^^^ b ∧
    amoFn .swap o b = b ∧ (amoFn .min o b = o ∨ amoFn .min o b = b) ∧ (amoFn .max o b = o ∨ amoFn .max o b = b) ∧
    (amoFn .min o b).toInt ≤ o.toInt ∧ (amoFn .min o b).toInt ≤ b.toInt ∧
    o.toInt ≤ (amoFn .max o b).toInt ∧ b.toInt ≤ (amoFn .max o b).toInt ∧
    amoFn .fadd o b = BitVec.ofNat 64 (o.toNat / 2 ^ 32 * 2 ^ 32 +
      (FFmt.single.add { rm := .rne, ftz := false, daz := false } (o.toNat % 2 ^ 32) (b.toNat % 2 ^ 32)).code)

/-- R173, R174, R184: issuing a load, store, atomic or vector access changes no byte, full bit or poison of memory: loads
and atomics are performed at their place, and stores wait in the store buffer. -/
def Obligations.IssuingAnAccessLeavesMemory : Prop :=
  ∀ (s s' : State) (i : Instr),
    ((∃ th, (Statements.loads th i).isSome ∨ (Statements.stores th i).isSome ∨ (Statements.cellOps th i).isSome) ∨
      (Statements.amos i).isSome ∨ (∃ st v a m pair off, i = .vld st v a m pair off ∨ i = .vst st v a m pair off) ∨
      (∃ st v b a m e sc, i = .vldx st v b a m e sc ∨ i = .vstx st v b a m e sc)) →
    exec i s = .next s' → s'.mem = s.mem

/-- R172 to R175, R178, R179, R184 to R186, R188, R191, R193 to R195: what the scalar memory instructions do when they issue. -/
def Obligations.MemoryAccessesIssue : Prop :=
  Statements.LoadsPark ∧ Statements.StoresEnterTheBuffer ∧ Statements.CellAccessesPark ∧ Statements.AtomicsPark ∧
    Statements.FenceCompletes

/-- R174 to R187: what an access does at its place, and the functions of the atomics. -/
def Obligations.AccessesAtTheirPlace : Prop :=
  Statements.AccessesArePerformed ∧ Statements.AtomicFunctions

/-! ### Matrix, messages and copies as they issue (spec 09, 10) -/

/-- The state after a read of local store at issue that met the poisoned cells met: an error that the read meets may have been
corrected, and is counted (R303, R309); each poisoned cell is counted, and FCSR.POISON is set (R34, R174). -/
def Sys2Proof.Statements.afterRead (s : State) (th : Thread) (met : List Nat) : State :=
  let s0 := s.mayCorrect th.asid (localKey th.id.core 0)
  if met = [] then s0 else (s0.count th.asid 8 met.length).setPoison th.id

/-- Under FCSR.PTE a read at issue that met poison traps with POISON and the address of the first such cell (R34, R174). -/
def Sys2Proof.Statements.poisonTrap (s : State) (th : Thread) (ad : W64) (met : List Nat) : State :=
  ((s.mayCorrect th.asid (localKey th.id.core 0)).count th.asid 8 met.length).trap th.id .poison
    (ad - BitVec.ofNat 64 (fld ad 0 18) + BitVec.ofNat 64 (met.headD 0)) th.pc

/-- R34, R174, R247, R258: words of the local store read at issue, as LD.D reads them: a poisoned cell gives zero and its offset is
noted. Here for a thread without buffered stores on a core without an exchange area. -/
def Sys2Proof.Statements.WordsReadAtIssue : Prop :=
  ∀ (s : State) (th : Thread) (off n : Nat), th.sbuf = [] → (s.core th.id.core).exch = 0 → off % 8 = 0 →
    let key := 2 ^ 39 + th.id.core * 2 ^ 18 + off
    (s.readWords th off n).1 = (List.range n).map (fun i =>
      BitVec.ofNat 64 (leNat ((List.range 8).map (fun j => s.mem.read (key + 8 * i + j))))) ∧
    (s.readWords th off n).2 =
      ((List.range n).filter (fun i => s.mem.poisoned (key / 8 + i))).map (fun i => off + 8 * i)

/-- The matrix instructions: their x registers, the format registers they read, the first check that fails before local store
is read, the arrival with what it captures, the poisoned cells met, and the first check that fails after (R226, R227, R231, R233,
R241, R244 to R247). -/
def Sys2Proof.Statements.arrivals (s : State) (th : Thread) (i : Instr) :
    Option (Stall × List XReg × List Nat × Option (Cause × W64) × Arrival × List Nat × Option (Cause × W64)) :=
  let x := th.getX
  let fm := fun (n : Nat) => th.getF (BitVec.ofNat 3 n)
  let arr := fun (fn : MxFn) (a b c fa fb : W64) (blk : List W64) =>
    ({ fn := fn, xa := a, xb := b, xc := c, fmtA := fa, fmtB := fb, blk := blk } : Arrival)
  let mac := fun (fn : MxFn) (st : Stall) (a b c : XReg) =>
    let na := fld (x a) 18 3
    let nb := fld (x b) 18 3
    let r := arr fn (x a) (x b) (x c) (fm na) (fm nb) []
    some (st, [a, b, c], [na, nb], macFault (s.core th.id.core) r, r, [], none)
  match i with
  | .mxmac st a b c => mac .mac st a b c
  | .mxmul st a b c => mac .mul st a b c
  | .mxdrain st a b =>
    let n := fld (x a) 3 3
    let block := s.readWords th (fld (x b) 0 18) 5
    let r := arr .drain (x a) (x b) 0 (fm n) 0 block.1
    some (st, [a, b], [n], drainFault (arr .drain (x a) (x b) 0 (fm n) 0 []), r, block.2, blockFault r)
  | .mxzero st a =>
    some (st, [a], [], if (x a).toNat < 32 ∧ fld (x a) 3 2 ≠ 3 then none else some (.illegal, x a),
      arr .zero (x a) 0 0 0 0 [], [], none)
  | .acld st a b => some (st, [a, b], [], accFault true (x a) (x b), arr .acld (x a) (x b) 0 0 0 [], [], none)
  | .acst st a b => some (st, [a, b], [], accFault false (x a) (x b), arr .acst (x a) (x b) 0 0 0 [], [], none)
  | .mxcfg st a =>
    some (st, [a], [], if (x a).toNat < 16 ∧ fld (x a) 0 3 ≤ 4 then none else some (.illegal, x a),
      arr .cfg (x a) 0 0 0 0 [], [], none)
  | .mxscl st a b =>
    let mode := fld (x a) 0 2
    some (st, [a, b], [],
      if ¬((x a).toNat < 128 ∧ mode ≠ 3 ∧ fld (x a) 2 5 ≤ 15 ∧ (mode = 2 ∨ fld (x a) 2 5 = 0)) then some (.illegal, x a)
      else if (mode = 0 ∧ x b ≠ 0) ∨ (mode = 2 ∧ ¬(x b).toNat < 2 ^ 36) then some (.illegal, x b)
      else if mode = 2 ∧ fld (x b) 0 18 % 8 ≠ 0 then some (.align, ownAddr (fld (x b) 0 18))
      else if mode = 2 ∧ fld (x b) 18 18 % 8 ≠ 0 then some (.align, ownAddr (fld (x b) 18 18))
      else none,
      arr .scl (x a) (x b) 0 0 0 [], [], none)
  | _ => none

/-- R226, R227, R247: a matrix instruction that passes its checks parks the thread with what it captured and takes its core's place
at the row's barrier, or waits behind the arrival that holds it; a failed check traps, and so does under FCSR.PTE a poisoned
cell of the parameter block. -/
def Sys2Proof.Statements.MatrixInstructionsArrive : Prop :=
  ∀ (s : State) (t : Tid) (th : Thread) (c : Ctx) (i : Instr) (st : Stall) (xs : List XReg) (fms : List Nat)
    (f : Option (Cause × W64)) (r : Arrival) (met : List Nat) (g : Option (Cause × W64)),
    Statements.arrivals s th i = some (st, xs, fms, f, r, met, g) →
    let o : Opnds := ⟨xs.map .x, xs.map .x ++ fms.map (fun n => .fm (BitVec.ofNat 3 n)), [], 0⟩
    Issues s t th c (some 1) o →
    let stops := met ≠ [] ∧ th.csr.fcsr.getLsbD 17 = true
    let read := match i with | .mxdrain _ _ _ => Statements.afterRead (s.issuedBy th st o) th met | _ => s.issuedBy th st o
    let parked := read.park th.id (.matrix r)
    let k := th.id.core
    (∀ q v, f = some (q, v) → exec i s = .next (s.trap t q v th.pc)) ∧
    (f = none → stops → exec i s = .next (Statements.poisonTrap (s.issuedBy th st o) th (ownAddr (fld r.xb 0 18)) met)) ∧
    (∀ q v, f = none → ¬stops → g = some (q, v) → exec i s = .next (s.trap t q v th.pc)) ∧
    (f = none → ¬stops → g = none → (s.core k).arrival = none →
      exec i s = .next ((parked.putCore k { s.core k with arrival := some (th.id, r) }).armStart (k / 4))) ∧
    (f = none → ¬stops → g = none → (s.core k).arrival ≠ none →
      exec i s = .next (parked.putCore k { s.core k with arrQueue := (s.core k).arrQueue ++ [(th.id, r)] }))

/-- R231: FMTSET writes a format register and FMTGET reads one, with a latency of 4. -/
def Sys2Proof.Statements.FormatRegisterMoves : Prop :=
  ∀ (s : State) (t : Tid) (th : Thread) (c : Ctx) (st : Stall) (n : MReg) (a d : XReg),
    (Issues s t th c (some 1) ⟨[.x a], [.x a], [.fm n], 4⟩ →
      exec (.fmtset st n a) s = .next (s.wrote th st ⟨[.x a], [.x a], [.fm n], 4⟩ [.fm n (th.getX a)])) ∧
    (Issues s t th c (some 1) ⟨[.x d], [.fm n], [.x d], 4⟩ →
      exec (.fmtget st d n) s = .next (s.wrote th st ⟨[.x d], [.fm n], [.x d], 4⟩ [.x d (th.getF n)]))

/-- R258: the checks of an instruction whose descriptor, of words words, xa names: the descriptor's own address, its words read as
LD.D reads them, then what they say. -/
def Sys2Proof.Statements.descriptorChecks (s : State) (t : Tid) (th : Thread) (i : Instr) (st : Stall) (o : Opnds) (ad : W64)
    (words : Nat) (fault : List W64 → Option (Cause × W64)) : Prop :=
  let x := s.readWords th (fld ad 0 18) words
  let stops := x.2 ≠ [] ∧ th.csr.fcsr.getLsbD 17 = true
  (∀ k, descFault th.id.core ad (8 * words) = some k → exec i s = .next (s.trap t k ad th.pc)) ∧
  (descFault th.id.core ad (8 * words) = none → stops →
    exec i s = .next (Statements.poisonTrap (s.issuedBy th st o) th ad x.2)) ∧
  (∀ k v, descFault th.id.core ad (8 * words) = none → ¬stops → fault x.1 = some (k, v) →
    exec i s = .next (s.trap t k v th.pc))

/-- R258: those checks pass. -/
def Sys2Proof.Statements.descriptorGood (s : State) (th : Thread) (ad : W64) (words : Nat)
    (fault : List W64 → Option (Cause × W64)) : Prop :=
  let x := s.readWords th (fld ad 0 18) words
  descFault th.id.core ad (8 * words) = none ∧ ¬(x.2 ≠ [] ∧ th.csr.fcsr.getLsbD 17 = true) ∧ fault x.1 = none

/-- R258 to R264: a SEND that passes its checks adds one message, with the next number of its pair of ranks, VTIME as its
stamp and its descriptor's fields; the thread parks until it is accepted or refused. A failed check traps and sends
nothing. -/
def Sys2Proof.Statements.SendAddsAMessage : Prop :=
  ∀ (s : State) (t : Tid) (th : Thread) (c : Ctx) (st : Stall) (a : XReg), Issues s t th c (some 2) (.rd [a]) →
    let ad := th.getX a
    let fault := fun (w : List W64) => s.sendFault c th.id.core ad w
    let q := fun n => (s.readWords th (fld ad 0 18) 4).1.getD n 0
    Statements.descriptorChecks s t th (.send st a) st (.rd [a]) ad 4 fault ∧
    (Statements.descriptorGood s th ad 4 fault →
      ∃ s' m, exec (.send st a) s = .next s' ∧ s'.ni.sends = s.ni.sends ++ [m] ∧
        m.hdr.drank = (q 2).toNat % 2 ^ 16 ∧ m.hdr.srank = (q 2).toNat / 2 ^ 16 % 2 ^ 16 ∧
        m.hdr.cmbox = (q 2).toNat / 2 ^ 32 % 2 ^ 8 ∧ m.hdr.tag.toNat = (q 1).toNat % 2 ^ 32 ∧
        m.hdr.len = (q 1).toNat / 2 ^ 32 ∧ m.hdr.kind = (if m.hdr.len ≤ 4096 then .eager else .rendezvous) ∧
        m.hdr.stamp = th.csr.vtime ∧ m.hdr.asid = th.asid ∧ m.hdr.tid = th.id ∧ m.hdr.saddr = q 0 ∧
        m.hdr.expires = s.ticks + (q 3).toNat % 2 ^ 32 ∧ m.views = c.views ∧
        m.hdr.seq = s.ni.pairSeq.getD (pairKey th.asid m.hdr.srank m.hdr.drank) 0 ∧
        s'.ni.pairSeq.getD (pairKey th.asid m.hdr.srank m.hdr.drank) 0 = (m.hdr.seq + 1) % 2 ^ 32 ∧
        s'.waiting? th.id = some (if th.storesDone then .message [m.id] ad else .messageStores [m.id] ad))

/-- R265, R266, R270: RECV empties STAT0's cell, and both RECV and PROBE park the thread until the match unit answers; nothing is
bound or posted yet. A failed check traps. -/
def Sys2Proof.Statements.ReceivesAskTheMatchUnit : Prop :=
  ∀ (s : State) (t : Tid) (th : Thread) (c : Ctx) (st : Stall) (d a : XReg),
    let ad := th.getX a
    let w := (s.readWords th (fld ad 0 18) 6).1
    let fault := fun (probe : Bool) (w : List W64) => s.recvFault c th.id.core ad w (recvOf c th ad w) probe
    (Issues s t th c (some 2) (.rd [a]) →
      Statements.descriptorChecks s t th (.recv st a) st (.rd [a]) ad 6 (fault false) ∧
      (Statements.descriptorGood s th ad 6 (fault false) →
        ∃ s' n, exec (.recv st a) s = .next s' ∧ s'.waiting? th.id = some (.rxe n (.recv (recvOf c th ad w))) ∧
          s'.rxe = s.rxe ∧ s'.mem.isFull (s.stat0Cell th.id.core ad) = false ∧
          (∀ x, s'.mem.read x = s.mem.read x) ∧
          ∀ x, x ≠ s.stat0Cell th.id.core ad → s'.mem.isFull x = s.mem.isFull x)) ∧
    (Issues s t th c (some 2) (.da d a 0) →
      Statements.descriptorChecks s t th (.probe st d a) st (.da d a 0) ad 6 (fault true) ∧
      (Statements.descriptorGood s th ad 6 (fault true) →
        ∃ s' n, exec (.probe st d a) s = .next s' ∧ s'.waiting? th.id = some (.rxe n (.probe d (recvOf c th ad w))) ∧
          s'.rxe = s.rxe ∧ s'.mem = s.mem))

/-- R265 to R268, R270, R381: when a RECV reaches its match unit and the unit is free, the first eligible unexpected message that
matches is bound, or the receive is posted last, or with 4,096 posted it is turned away; a PROBE binds and posts nothing. At a unit
that is busy, or at which others wait, it waits behind them. -/
def Sys2Proof.Statements.MatchUnitTakesReceives : Prop :=
  ∀ (s : State) (th : Thread) (n : Nat) (d : XReg) (r : Recv),
    let c := s.ctxOf th
    (s.asker? n = some (th, .recv r) → s.thread? th.id = some th →
      (s.unitFree (dieOf r.core) = false → exec (.acceptanceReply n) s =
        .next (State.pollAll { s with rxe := { s.rxe with waiting := s.rxe.waiting ++ [(dieOf r.core, .ask n)] } })) ∧
      (s.unitFree (dieOf r.core) = true →
        (∀ h, s.findMessage c r = some h → ∃ (s1 : State) (l : Landing), exec (.acceptanceReply n) s = .next s1.pollAll ∧
          s1.waiting? th.id = some (.rxe n (.done none 0)) ∧
          s1.rxe.unexp = s.rxe.unexp.filter (· != h) ∧ s1.rxe.posted = s.rxe.posted ∧
          s1.rxe.landings = s.rxe.landings ++ [l] ∧ l.hdr = h ∧ l.recv = r) ∧
        (s.findMessage c r = none → s.rxe.posted.length < 4096 → ∃ s1 : State, exec (.acceptanceReply n) s = .next s1.pollAll ∧
          s1.waiting? th.id = some (.rxe n (.done none 0)) ∧
          s1.rxe.posted = s.rxe.posted ++ [r] ∧ s1.rxe.unexp = s.rxe.unexp ∧ s1.rxe.landings = s.rxe.landings) ∧
        (s.findMessage c r = none → 4096 ≤ s.rxe.posted.length → ∃ s1 : State, exec (.acceptanceReply n) s = .next s1.pollAll ∧
          s1.waiting? th.id = some (.rxe n (.full r.desc)) ∧
          s1.rxe.posted = s.rxe.posted ∧ s1.rxe.unexp = s.rxe.unexp ∧ s1.rxe.landings = s.rxe.landings))) ∧
    (s.asker? n = some (th, .probe d r) → s.thread? th.id = some th → s.unitFree (dieOf r.core) = true →
      ∃ s1 : State, exec (.acceptanceReply n) s = .next s1.pollAll ∧
        s1.rxe.posted = s.rxe.posted ∧ s1.rxe.unexp = s.rxe.unexp ∧ s1.rxe.landings = s.rxe.landings ∧
        s1.waiting? th.id = some (.rxe n (.done (some d) (match s.findMessage c r with
          | some h => BitVec.ofNat 64 h.len
          | none => BitVec.allOnes 64)))) ∧
    (s.asker? n = some (th, .done none 0) → exec (.acceptanceReply n) s = .next (s.wake th.id).pollAll) ∧
    (∀ v, s.asker? n = some (th, .done (some d) v) → exec (.acceptanceReply n) s = .next (s.wakeX th.id d v).pollAll) ∧
    (∀ ad, s.asker? n = some (th, .full ad) → th.ovr = false →
      exec (.acceptanceReply n) s = .next (s.trapParked th.id .refused ad).pollAll)

/-- R271: MBWAIT subtracts its amount from the counter when it is there and no other thread waits on the counter already, else the
thread parks with the counter as it is; an
amount of 0 does nothing; a counter above 255 or an amount above 32 bits is ILLEGAL. -/
def Sys2Proof.Statements.MailboxWait : Prop :=
  ∀ (s : State) (t : Tid) (th : Thread) (c : Ctx) (st : Stall) (a b : XReg), Issues s t th c (some 2) (.rd [a, b]) →
    let x := th.getX a
    let y := th.getX b
    let k := th.id.core
    let v := (s.core k).mail.getD x.toNat 0
    (256 ≤ x.toNat → exec (.mbwait st a b) s = .next (s.trap t .illegal x th.pc)) ∧
    (x.toNat < 256 → 2 ^ 32 ≤ y.toNat → exec (.mbwait st a b) s = .next (s.trap t .illegal y th.pc)) ∧
    (x.toNat < 256 → y = 0 → exec (.mbwait st a b) s = .next (s.issuedBy th st (.rd [a, b]))) ∧
    (x.toNat < 256 → y.toNat < 2 ^ 32 → y ≠ 0 → ∃ n,
      let parked := ((s.issuedBy th st (.rd [a, b])).fresh.2).park th.id (.mbwait x.toNat y.toNat n)
      exec (.mbwait st a b) s = .next (if y.toNat ≤ v.toNat ∧ s.mailTaken k x.toNat = false then
        (parked.modCore k (fun r => { r with mail := r.mail.setD x.toNat (v - BitVec.ofNat 32 y.toNat) 0 })).wake th.id
        else parked))

/-- R258, R260, R273, R274: a MCAST that passes its checks adds one message for each destination of its list or bitmap, in order,
all of one group and with the descriptor's fields, and the thread parks; with no destination it adds one message to nobody. Its
list is read as its descriptor is, and a failed check of a destination or of the source rank traps. -/
def Sys2Proof.Statements.McastAddsItsBranches : Prop :=
  ∀ (s : State) (t : Tid) (th : Thread) (c : Ctx) (st : Stall) (a : XReg), Issues s t th c (some 2) (.rd [a]) →
    let ad := th.getX a
    let fault := fun (w : List W64) => s.mcastFault c th.id.core ad w
    let w := s.readWords th (fld ad 0 18) 5
    let q := fun n => w.1.getD n 0
    let mode1 := (q 2).getLsbD 24
    let count := fld (q 2) 25 7
    let list := s.readList th (fld (q 3) 0 18) (if mode1 then 576 else 2 * count)
    let dests := if mode1 then
        (List.range Config.cores).filter (fun k => (list.1.getD (k / 8) 0).getLsbD (k % 8))
      else (List.range count).map (fun k => leNat ((list.1.drop (2 * k)).take 2))
    let here := Statements.afterRead (s.issuedBy th st (.rd [a])) th w.2
    let stops := list.2 ≠ [] ∧ th.csr.fcsr.getLsbD 17 = true
    let fields := fun (m : SendRec) => m.hdr.len = fld (q 1) 32 13 ∧ m.hdr.kind = .branch ∧ m.hdr.saddr = q 0 ∧
      m.hdr.stamp = th.csr.vtime ∧ m.hdr.srank = fld (q 2) 0 16 ∧ m.hdr.tag.toNat = (q 1).toNat % 2 ^ 32 ∧
      m.hdr.cmbox = fld (q 2) 16 8 ∧ m.hdr.expires = s.ticks + fld (q 4) 32 32 ∧ m.staged = false ∧ m.accepted = false
    Statements.descriptorChecks s t th (.mcast st a) st (.rd [a]) ad 5 fault ∧
    (Statements.descriptorGood s th ad 5 fault →
      (stops → exec (.mcast st a) s = .next (Statements.poisonTrap here th (q 3) list.2)) ∧
      (∀ k v, ¬stops → s.destFault c th.id.core ad w.1 dests = some (k, v) →
        exec (.mcast st a) s = .next (s.trap t k v th.pc)) ∧
      (¬stops → s.destFault c th.id.core ad w.1 dests = none → ∃ s' ms, exec (.mcast st a) s = .next s' ∧
        s'.ni.sends = s.ni.sends ++ ms ∧ (∀ m ∈ ms, fields m ∧ some m.group = ms.head?.map (·.id)) ∧
        (dests ≠ [] → ms.length = dests.length ∧ ∀ m ∈ ms, m.nobody = false) ∧
        (dests = [] → ms.length = 1 ∧ ∀ m ∈ ms, m.nobody = true) ∧
        (dests ≠ [] → mode1 = true →
          ms.map (fun m => m.direct.map (fun d => (d.core, d.off, d.mbox, d.fill))) =
            dests.map (fun d => some (d, fld (q 4) 0 18, fld (q 2) 32 8, (q 2).getLsbD 40))) ∧
        (mode1 = false → ms.map (fun m => (m.hdr.drank, m.direct)) = dests.map (fun d => (d, none))) ∧
        s'.waiting? th.id = some (if th.storesDone then .message (ms.map (·.id)) ad else .messageStores (ms.map (·.id)) ad)))

/-- R258, R275, R276, R279, R280: COPY takes an entry with its descriptor's fields and one bit for each chunk, or parks
while 64 of the core are outstanding; CWAIT completes when every bit of its mask has landed or is poisoned, with the
poisoned ones; CMAP sets the base and clears the map, but for landings of its own tick; a map above 15 or a base above 383
is ILLEGAL. -/
def Obligations.CopyInstructions : Prop :=
  ∀ (s : State) (t : Tid) (th : Thread) (c : Ctx) (st : Stall) (d a b : XReg),
    let x := th.getX a
    let y := th.getX b
    let k := th.id.core
    (Issues s t th c (some 3) (.rd [a]) →
      let fault := fun (w : List W64) => s.copyFault c k x w (copyOf c th w)
      let w := s.readWords th (fld x 0 18) 5
      let r := copyOf c th w.1
      let full := { r with channel := s.sourceChannel c k r.src,
                           m0 := fld r.dst 0 18 / 512 - (s.chunkMap r.dcore r.map).base.toNat,
                           chunks := List.range ((r.len + 511) / 512) }
      Statements.descriptorChecks s t th (.copy st a) st (.rd [a]) x 5 fault ∧
      (Statements.descriptorGood s th x 5 fault →
        (s.copiesOf k < 64 → ∃ s' r', exec (.copy st a) s = .next s' ∧ s'.copies = s.copies ++ [r'] ∧
          r' = { full with id := r'.id, born := s.ticks, after := (th.sbuf.filter (·.held.isNone)).map (·.id) }) ∧
        (64 ≤ s.copiesOf k → exec (.copy st a) s =
          .next ((Statements.afterRead (s.issuedBy th st (.rd [a])) th w.2).park th.id (.copyFull full))))) ∧
    (Issues s t th c (some 3) (.dab d a b 0) →
      let m := s.chunkMap k x.toNat
      let parked := (s.issuedBy th st (.dab d a b 0)).park th.id (.cwait x.toNat y d)
      (16 ≤ x.toNat → exec (.cwait st d a b) s = .next (s.trap t .illegal x th.pc)) ∧
      (x.toNat < 16 → (m.landed ||| m.poisoned) &&& y = y →
        exec (.cwait st d a b) s = .next (parked.wakeX th.id d (m.poisoned &&& y))) ∧
      (x.toNat < 16 → (m.landed ||| m.poisoned) &&& y ≠ y → exec (.cwait st d a b) s = .next parked)) ∧
    (Issues s t th c (some 3) (.rd [a, b]) →
      (16 ≤ x.toNat → exec (.cmap st a b) s = .next (s.trap t .illegal x th.pc)) ∧
      (x.toNat < 16 → 384 ≤ y.toNat → exec (.cmap st a b) s = .next (s.trap t .illegal y th.pc)) ∧
      (x.toNat < 16 → y.toNat < 384 → ∃ s', exec (.cmap st a b) s = .next s' ∧
        (s'.chunkMap k x.toNat).base.toNat = y.toNat ∧
        ((s.chunkMap k x.toNat).lastTick ≠ s.ticks →
          (s'.chunkMap k x.toNat).landed = 0 ∧ (s'.chunkMap k x.toNat).poisoned = 0) ∧
        (∀ j n, (j, n) ≠ (k, x.toNat) → s'.chunkMap j n = s.chunkMap j n)))

/-- R226, R227, R231, R233, R241, R244 to R247: the matrix and format instructions as they issue. -/
def Obligations.MatrixAndFormatInstructions : Prop :=
  Statements.MatrixInstructionsArrive ∧ Statements.FormatRegisterMoves

/-- R258 to R264, R273, R274: SEND and MCAST. -/
def Obligations.SendingInstructions : Prop :=
  Statements.WordsReadAtIssue ∧ Statements.SendAddsAMessage ∧ Statements.McastAddsItsBranches

/-- R265 to R271: RECV, PROBE and MBWAIT. -/
def Obligations.ReceivingInstructions : Prop :=
  Statements.ReceivesAskTheMatchUnit ∧ Statements.MatchUnitTakesReceives ∧ Statements.MailboxWait

/-! ### Threads, groups, gangs, regions and control registers (spec 01, 08) -/

/-- R200: SPAWN parks the thread and reads the nine words of its descriptor as ordinary loads, in the order of their addresses; a
descriptor that is not 72 readable bytes of a held local store is PROTECT, a misaligned one ALIGN. -/
def Sys2Proof.Statements.SpawnParks : Prop :=
  ∀ (s : State) (t : Tid) (th : Thread) (c : Ctx) (st : Stall) (d a : XReg), Issues s t th c none (.da d a 0) →
    let ad := th.getX a
    let outside := ad.getLsbD 63 = true ∨ fld ad 61 2 ≠ 1 ∨ protectFault c th.id.core ad 72 true false = true
    let word := fun (i : Nat) => Statements.loadParts c th.id.core i (ad + BitVec.ofNat 64 (8 * i)) 8 0
    (¬outside → ad.toNat % 8 = 0 →
      exec (.spawn st d a) s = .next ((s.issuedBy th st (.da d a 0)).sendAccess th.id
        (Statements.access1 th ((List.range 9).flatMap word) (.spawn d))) ∧
      ∃ s' acc, exec (.spawn st d a) s = .next s' ∧ s'.waiting? th.id = some (.access acc) ∧ acc.dst = .spawn d ∧
        acc.lanes.map (·.addr) = (List.range 9).map (fun i => ad + BitVec.ofNat 64 (8 * i)) ∧ acc.lanes.all (·.val.isNone)) ∧
    (outside → exec (.spawn st d a) s = .next (s.trap t .protect ad th.pc)) ∧
    (¬outside → ad.toNat % 8 ≠ 0 → exec (.spawn st d a) s = .next (s.trap t .align ad th.pc))

/-- R201: EXIT in an open region traps with NESTING and the depth; else the thread leaves its gang and its groups, its
pending writes are dropped, and its slot is free, at once when its store buffer is empty. -/
def Sys2Proof.Statements.ExitEndsTheThread : Prop :=
  ∀ (s : State) (t : Tid) (th : Thread) (c : Ctx) (st : Stall), Issues s t th c none .none →
    (th.regions ≠ [] → exec (.exit st) s = .next (s.trap t .nesting (BitVec.ofNat 64 th.regions.length) th.pc)) ∧
    (th.regions = [] → ∃ x : State, exec (.exit st) s = .next x.pollAll ∧
      x = ((s.issuedBy th st .none).leaveGang (th.issued s.ticks st .none)).endThread th.id ∧
      (th.sbuf = [] → x.thread? th.id = none) ∧
      (th.sbuf ≠ [] → ∃ u, x.thread? th.id = some u ∧ u.run = .parked .exitDrain ∧ u.pend = [] ∧ u.gang = .none ∧
        u.sbuf = th.sbuf))

/-- R37, R202, R204: JOIN and LEAVE. A group above 4,095 is ILLEGAL. JOIN of a group held already changes nothing; with 8
memberships of the thread or 128 of the core it is REFUSED; else it takes an entry, pending while the group's phase is
open. LEAVE of a group not held changes nothing. -/
def Sys2Proof.Statements.JoinAndLeave : Prop :=
  ∀ (s : State) (t : Tid) (th : Thread) (c : Ctx) (st : Stall) (a : XReg), Issues s t th c none (.rd [a]) →
    let v := th.getX a
    let k := th.id.core
    let mine := (s.core k).members.filter (fun m => m.slot == th.id.slot)
    let holds := ∃ m ∈ mine, m.group = v.toNat
    let here := s.issuedBy th st (.rd [a])
    (4095 < v.toNat → exec (.join st a) s = .next (s.trap t .illegal v th.pc) ∧
      exec (.leave st a) s = .next (s.trap t .illegal v th.pc)) ∧
    (v.toNat ≤ 4095 → holds → exec (.join st a) s = .next here ∧
      exec (.leave st a) s = .next ((here.leaveGroup (th.issued s.ticks st (.rd [a])) v.toNat).pollAll)) ∧
    (v.toNat ≤ 4095 → ¬holds → exec (.leave st a) s = .next here ∧
      (8 ≤ mine.length ∨ 128 ≤ (s.core k).members.length → exec (.join st a) s = .next (s.trap t .refused v th.pc)) ∧
      (mine.length < 8 → (s.core k).members.length < 128 → exec (.join st a) s =
        .next (here.modCore k (fun r => { r with members := r.members ++
          [{ group := v.toNat, slot := th.id.slot, pending := (s.group th.asid v.toNat).isOpen, since := s.ticks }] }))))

/-- R205: GBAR of a group above 4,095 is ILLEGAL, of a group not held REFUSED, of an open phase of the other kind
GANGMISMATCH; else the thread parks at the barrier. -/
def Sys2Proof.Statements.GroupBarrierParks : Prop :=
  ∀ (s : State) (t : Tid) (th : Thread) (c : Ctx) (st : Stall) (a : XReg) (tide : Bool), Issues s t th c none (.rd [a]) →
    let v := th.getX a
    let mine := (s.core th.id.core).members.filter (fun m => m.slot == th.id.slot)
    let g := s.group th.asid v.toNat
    (4095 < v.toNat → exec (.gbar st a tide) s = .next (s.trap t .illegal v th.pc)) ∧
    (v.toNat ≤ 4095 → (∀ m ∈ mine, m.group ≠ v.toNat) → exec (.gbar st a tide) s = .next (s.trap t .refused v th.pc)) ∧
    (∀ m, v.toNat ≤ 4095 → mine.find? (fun m => m.group == v.toNat) = some m →
      (m.pending = false → g.isOpen = true → g.tide ≠ tide →
        exec (.gbar st a tide) s = .next (s.trap t .gangmismatch v th.pc)) ∧
      (m.pending = true ∨ g.isOpen = false ∨ g.tide = tide →
        exec (.gbar st a tide) s =
          .next (((s.issuedBy th st (.rd [a])).park th.id (.gbar v.toNat tide false)).poll th.id).pollAll))

/-- R207 to R210: GANG.FOLLOW waits on a core that is no base and where no other thread waits so; GANG.LEAD on a base core whose
followers all wait, with its size and wheel positions, forms the gang; each failure is GANGMISMATCH. SPLIT in the leader and
in a follower leaves the gang, a follower at its own target; outside a gang it is GANGMISMATCH. -/
def Obligations.GangsFormAndSplit : Prop :=
  ∀ (s : State) (t : Tid) (th : Thread) (c : Ctx) (st : Stall),
    let k := th.id.core
    let mismatch := fun (core : Nat) => Host.Outcome.next (s.trap t .gangmismatch (BitVec.ofNat 64 core) th.pc)
    (∀ z n, (z, n) ∈ [(GangSize.g2, 2), (.g4, 4), (.g8, 8), (.g16, 16)] → Issues s t th c (some 4) .none →
      let here := s.issuedBy th st .none
      (k % 16 % n = 0 ∨ (here.follower? th.asid k).isSome → exec (.gang st z .follow) s = mismatch k) ∧
      (k % 16 % n ≠ 0 → here.follower? th.asid k = none →
        exec (.gang st z .follow) s =
          .next (here.modThread th.id (fun u => { u.park .exitDrain with run := .followWait z }))) ∧
      (k % 16 % n ≠ 0 ∨ th.gang ≠ .none → exec (.gang st z .lead) s = mismatch k) ∧
      (∀ core, k % 16 % n = 0 → th.gang = .none →
        here.followers th.asid k z ((List.range n).drop 1) = .error core → exec (.gang st z .lead) s = mismatch core) ∧
      (∀ fs, k % 16 % n = 0 → th.gang = .none → here.followers th.asid k z ((List.range n).drop 1) = .ok fs →
        (∀ f, fs.find? (fun f => f.wheel ≠ th.wheel) = some f → exec (.gang st z .lead) s = mismatch f.id.core) ∧
        ((∀ f ∈ fs, f.wheel = th.wheel) →
          exec (.gang st z .lead) s = .next (here.formGang (th.issued s.ticks st .none) z fs)))) ∧
    (∀ a, Issues s t th c (some 4) (.rd [a]) →
      let left := (s.issuedBy th st (.rd [a])).leaveGang (th.issued s.ticks st (.rd [a]))
      let tgt := th.getX a
      (th.gang = .none → exec (.split st a) s = mismatch k) ∧
      (∀ z ms, th.gang = .leader z ms → exec (.split st a) s = .next left) ∧
      (∀ l h fw, th.gang = .follower l h fw →
        (tgt.toNat % 4 = 0 → c.loaded tgt.toNat = true →
          exec (.split st a) s = .next (left.modThread th.id (fun u => { u with pc := tgt.toNat }))) ∧
        (tgt.toNat % 4 ≠ 0 → exec (.split st a) s = .next (left.trap th.id .align tgt th.pc)) ∧
        (tgt.toNat % 4 = 0 → c.loaded tgt.toNat = false →
          exec (.split st a) s = .next (left.trap th.id .protect tgt th.pc))))

/-- R213, R30: VTADV adds xa to VTIME; a sum above 2^64 − 1 traps with ILLEGAL and VTIME is unchanged. -/
def Sys2Proof.Statements.VirtualTimeAdvances : Prop :=
  ∀ (s : State) (t : Tid) (th : Thread) (c : Ctx) (st : Stall) (a : XReg), Issues s t th c none (.rd [a]) →
    (th.csr.vtime.toNat + (th.getX a).toNat < 2 ^ 64 → exec (.vtadv st a) s =
      .next ((s.issuedBy th st (.rd [a])).modThread th.id (fun u =>
        { u with csr := { u.csr with vtime := BitVec.ofNat 64 (th.csr.vtime.toNat + (th.getX a).toNat) } }))) ∧
    (2 ^ 64 ≤ th.csr.vtime.toNat + (th.getX a).toNat →
      exec (.vtadv st a) s = .next (s.trap t .illegal (th.getX a) th.pc))

/-- R214 to R216: a TOPEN that passes the checks of R215 opens a region at its tick and arms its maximum; the first check
that fails traps. -/
def Sys2Proof.Statements.RegionsOpen : Prop :=
  ∀ (s : State) (t : Tid) (th : Thread) (c : Ctx) (st : Stall) (d a b : XReg), Issues s t th c (some 5) (.rd [d, a, b]) →
    let x := th.getX d
    let least := th.getX a
    let most := th.getX b
    (s.topenFault th x least most = none → exec (.topen st d a b) s =
      .next (((s.issuedBy th st (.rd [d, a, b])).modThread th.id (fun u => { u with regions :=
        { openTick := s.ticks, min := least.toNat, max := most.toNat, hold := x.getLsbD 0, hnd := false,
          desc := x.toNat / 4 % 2 ^ 16 } :: u.regions })).after_ most.toNat rankOverrun (.overrun th.id))) ∧
    (∀ k v, s.topenFault th x least most = some (k, v) → exec (.topen st d a b) s = .next (s.trap t k v th.pc))

/-- R215: what the checks of TOPEN admit: reserved bits zero, 32-bit bounds in order, descriptor and handler in loaded code,
HBOUND not 0, fewer than four open regions, and room under the thread's CAP (R29) or inside the innermost region. -/
def Sys2Proof.Statements.RegionChecks : Prop :=
  ∀ (s : State) (th : Thread) (c : Ctx) (d a b : W64), s.ctx? th.asid = some c →
    let desc := d.toNat / 4 % 2 ^ 16 * 4
    let w0 := (s.codeWord th.id.core desc).toNat
    let hbound := (s.codeWord th.id.core (desc + 4)).toNat
    (s.topenFault th d a b = none ↔
      d.toNat < 2 ^ 18 ∧ d.getLsbD 1 = false ∧ a.toNat < 2 ^ 32 ∧ b.toNat < 2 ^ 32 ∧ a.toNat ≤ b.toNat ∧
      c.loaded desc = true ∧ c.loaded (desc + 4) = true ∧ c.loaded (w0 / 4 % 2 ^ 16 * 4) = true ∧
      w0 % 4 = 0 ∧ w0 < 2 ^ 18 ∧ hbound ≠ 0 ∧
      match th.regions with
      | [] => b.toNat + hbound ≤ th.cap
      | r :: l => l.length ≠ 3 ∧ b.toNat + hbound ≤ r.openTick + r.max - s.ticks)

/-- R217: TCLOSE outside a region is NESTING; else the thread parks with the elapsed ticks and wakes at the close instant, the
later of now and the region's minimum. -/
def Sys2Proof.Statements.RegionsClose : Prop :=
  ∀ (s : State) (t : Tid) (th : Thread) (c : Ctx) (st : Stall) (d : XReg), Issues s t th c (some 5) (.d d 0) →
    (th.regions = [] → exec (.tclose st d) s = .next (s.trap t .nesting 0 th.pc)) ∧
    (∀ r l, th.regions = r :: l → exec (.tclose st d) s =
      .next (((s.issuedBy th st (.d d 0)).park th.id (.tclose d (s.ticks - r.openTick))).sched_
        (max s.ticks (r.openTick + r.min)) rankClose (.tcloseCloseInstant th.id)))

/-- R19 to R32: the value of each control register. -/
def Sys2Proof.Statements.csrValue (s : State) (c : Ctx) (th : Thread) (n : Nat) : Option W64 :=
  if n = 0x000 then some th.csr.fcsr
  else if n = 0x001 then some (BitVec.ofNat 64 s.ticks)
  else if n = 0x002 then some th.csr.vtime
  else if n = 0x003 then some (if c.spans then c.domLwm else c.lwm)
  else if n = 0x004 then some (BitVec.ofNat 64 s.swm)
  else if n = 0x008 then some (BitVec.ofNat 64 (th.id.slot + th.id.core * 2 ^ 6 + s.ni.peer * 2 ^ 19))
  else if n = 0x009 then some th.win
  else if n = 0x00A then some th.wheel
  else if n = 0x010 then some th.csr.tvec
  else if n = 0x011 then some th.csr.tepc
  else if n = 0x012 then some th.csr.tcause
  else if n = 0x013 then some th.csr.tval
  else if n = 0x014 then some th.csr.tsave
  else if n = 0x018 then some (th.bstat s.ticks)
  else if n = 0x020 then some (if th.csr.chk then 1 else 0)
  else if n = 0x021 then some (th.csr.feretry.setWidth 64)
  else if n = 0x030 then some (th.csr.detlvl.setWidth 64)
  else if n = 0x040 then some (BitVec.ofNat 64 s.ni.peer)
  else none

/-- R19, R20, R221: CSRR writes the value of a listed register with a latency of 4; an unlisted number is ILLEGAL with the
number in TVAL. -/
def Sys2Proof.Statements.ControlRegisterReads : Prop :=
  ∀ (s : State) (t : Tid) (th : Thread) (c : Ctx) (st : Stall) (d : XReg) (n : BitVec 10), Issues s t th c none (.d d 4) →
    (∀ v, Statements.csrValue s c th n.toNat = some v →
      exec (.csrr st d n) s = .next (s.wrote th st (.d d 4) [.x d v])) ∧
    (Statements.csrValue s c th n.toNat = none →
      exec (.csrr st d n) s = .next (s.trap t .illegal (n.setWidth 64) th.pc))

/-- R20 to R31, R221: CSRW changes the writable fields of one register, for every later instruction, and writes the old value
to xd; reserved bits stay zero, FERETRY 0 becomes 1, VTIME never falls, a reserved RM, a read-only or an unlisted register is
ILLEGAL. -/
def Sys2Proof.Statements.ControlRegisterWrites : Prop :=
  ∀ (s : State) (t : Tid) (th : Thread) (c : Ctx) (st : Stall) (d a : XReg), Issues s t th c none (.da d a 4) →
    let v := th.getX a
    let writes := fun (old : W64) (f : Csrs → Csrs) => Host.Outcome.next
      (((s.issuedBy th st (.da d a 4)).modThread th.id (fun u => { u with csr := f u.csr })).writeReg th.id 4 (.x d old))
    let illegal := fun (x : W64) => Host.Outcome.next (s.trap t .illegal x th.pc)
    (v.toNat % 8 ≤ 4 → exec (.csrw st d a 0x000) s = writes th.csr.fcsr (fun r => { r with fcsr := v &&& 0x3FFFF })) ∧
    (4 < v.toNat % 8 → exec (.csrw st d a 0x000) s = illegal 0x000) ∧
    (th.csr.vtime.toNat ≤ v.toNat → exec (.csrw st d a 0x002) s = writes th.csr.vtime (fun r => { r with vtime := v })) ∧
    (v.toNat < th.csr.vtime.toNat → exec (.csrw st d a 0x002) s = illegal v) ∧
    exec (.csrw st d a 0x010) s = writes th.csr.tvec (fun r => { r with tvec := v &&& 0x3FFFD }) ∧
    exec (.csrw st d a 0x011) s = writes th.csr.tepc (fun r => { r with tepc := v &&& 0x3FFFC }) ∧
    exec (.csrw st d a 0x012) s = writes th.csr.tcause (fun r => { r with tcause := v &&& 0x1FF }) ∧
    exec (.csrw st d a 0x013) s = writes th.csr.tval (fun r => { r with tval := v }) ∧
    exec (.csrw st d a 0x014) s = writes th.csr.tsave (fun r => { r with tsave := v }) ∧
    exec (.csrw st d a 0x020) s = writes (if th.csr.chk then 1 else 0) (fun r => { r with chk := v.getLsbD 0 }) ∧
    exec (.csrw st d a 0x021) s = writes (th.csr.feretry.setWidth 64)
      (fun r => { r with feretry := if v.setWidth 32 = 0 then 1 else v.setWidth 32 }) ∧
    (∀ n : BitVec 10, n.toNat ∉ [0x000, 0x002, 0x010, 0x011, 0x012, 0x013, 0x014, 0x020, 0x021] →
      exec (.csrw st d a n) s = illegal (n.setWidth 64))

/-- R20 to R31: a control-register write never lowers VTIME, never changes DETLVL, and leaves the reserved bits of FCSR, TVEC,
TEPC and TCAUSE zero, RM a listed mode and FERETRY above 0. -/
def Obligations.WritesKeepReservedBitsZero : Prop :=
  ∀ (r r' : Csrs) (n : Nat) (v : W64), r.write n v = .ok r' →
    r.vtime.toNat ≤ r'.vtime.toNat ∧ r'.detlvl = r.detlvl ∧
    (r.fcsr.toNat < 2 ^ 18 ∧ r.fcsr.toNat % 8 ≤ 4 → r'.fcsr.toNat < 2 ^ 18 ∧ r'.fcsr.toNat % 8 ≤ 4) ∧
    (r.tvec.toNat < 2 ^ 18 ∧ r.tvec.getLsbD 1 = false → r'.tvec.toNat < 2 ^ 18 ∧ r'.tvec.getLsbD 1 = false) ∧
    (r.tepc.toNat < 2 ^ 18 ∧ r.tepc.toNat % 4 = 0 → r'.tepc.toNat < 2 ^ 18 ∧ r'.tepc.toNat % 4 = 0) ∧
    (r.tcause.toNat < 2 ^ 9 → r'.tcause.toNat < 2 ^ 9) ∧ (r.feretry ≠ 0 → r'.feretry ≠ 0)

/-- R200, R201: SPAWN and EXIT as they issue. -/
def Obligations.SpawnAndExit : Prop :=
  Statements.SpawnParks ∧ Statements.ExitEndsTheThread

/-- R37, R202 to R205: JOIN, LEAVE and GBAR. -/
def Obligations.GroupInstructions : Prop :=
  Statements.JoinAndLeave ∧ Statements.GroupBarrierParks

/-- R214 to R217: TOPEN, its checks, and TCLOSE. -/
def Obligations.BoundedRegions : Prop :=
  Statements.RegionsOpen ∧ Statements.RegionChecks ∧ Statements.RegionsClose

/-- R19 to R32, R213, R221: CSRR, CSRW and VTADV. -/
def Obligations.ControlRegisters : Prop :=
  Statements.ControlRegisterReads ∧ Statements.ControlRegisterWrites ∧ Statements.VirtualTimeAdvances

/-! ### Landings, parked threads and accesses under way (spec 01, 04, 07, 12, 14) -/

/-- A parked instruction of the thread completes, and th is the thread with its results: it is ready, or takes the trap that
waited for the instruction's end, no earlier than the gap it owes (R77, R102, R212). -/
def Sys2Proof.Statements.completes (s : State) (th : Thread) : State :=
  let s1 := s.putThread { th with run := .ready, ovr := false, after := none }
  match th.after with
  | none => s1
  | some (k, v) => (s1.trap th.id k v th.pc).keepGap th.id th.gapUntil

/-- R22, R101: a landing event lands every write that is due, in order of issue, and nothing else: a register takes the last
value due for it, FCSR only gains bits, and what is not due stays pending. R100, R102: a parked instruction writes its
destination behind every register write that was pending; those land first, in the order of their ticks and in one tick in that of
issue, and bits of FCSR stay pending. -/
def Obligations.LandingsWriteWhatIsDue : Prop :=
  (∀ (th : Thread),
    let u := th.landRegs
    (∀ p, p ∈ u.pend ↔ p ∈ th.pend ∧ ∃ b, p.dst = .flags b) ∧
    (∀ r v a b n, th.pend = a ++ { due := n, dst := .x r v } :: b → r ≠ 0 → (∀ p ∈ a, ∀ w, p.dst = .x r w → p.due ≤ n) →
      (∀ p ∈ b, ∀ w, p.dst = .x r w → p.due < n) → u.getX r = v) ∧
    (∀ r, (∀ p ∈ th.pend, ∀ w, p.dst ≠ .x r w) → u.getX r = th.getX r) ∧
    u.csr = th.csr ∧ u.id = th.id ∧ u.pc = th.pc ∧ u.run = th.run ∧ u.regions = th.regions ∧ u.sbuf = th.sbuf) ∧
  (∀ (s : State) (t : Tid) (th : Thread), s.thread? t = some th →
    exec (.registerWriteLanding t) s = .next (s.putThread (th.land s.ticks))) ∧
  ∀ (th : Thread) (now : Nat),
    let u := th.land now
    u.pend = th.pend.filter (fun p => now < p.due) ∧
    (∀ r v a b n, th.pend = a ++ { due := n, dst := .x r v } :: b → n ≤ now → r ≠ 0 →
      (∀ p ∈ b, p.due ≤ now → ∀ w, p.dst ≠ .x r w) → u.getX r = v) ∧
    (∀ r, (∀ p ∈ th.pend, p.due ≤ now → ∀ w, p.dst ≠ .x r w) → u.getX r = th.getX r) ∧
    (∀ r, (∀ p ∈ th.pend, p.due ≤ now → ∀ m w, p.dst ≠ .v r m w) → u.getV r = th.getV r) ∧
    (∀ r, (∀ p ∈ th.pend, p.due ≤ now → ∀ m w, p.dst ≠ .m r m w) → u.getM r = th.getM r) ∧
    (∀ r, (∀ p ∈ th.pend, p.due ≤ now → ∀ w, p.dst ≠ .fm r w) → u.getF r = th.getF r) ∧
    th.csr.fcsr &&& u.csr.fcsr = th.csr.fcsr ∧ { u.csr with fcsr := th.csr.fcsr } = th.csr ∧
    ((∀ p ∈ th.pend, p.due ≤ now → ∀ b, p.dst ≠ .flags b) → u.csr.fcsr = th.csr.fcsr) ∧
    u.id = th.id ∧ u.pc = th.pc ∧ u.run = th.run ∧ u.regions = th.regions ∧ u.sbuf = th.sbuf ∧ u.gang = th.gang

/-- R101, R154, R155: a vector landing replaces the bits under its mask and keeps the others; x0 and m0 take no value. -/
def Obligations.LandingMasksAndFixedRegisters : Prop :=
  ∀ (th : Thread) (r : VReg) (mask val : V512),
    ((th.apply (.v r mask val)).getV r) &&& mask = val &&& mask ∧
    ((th.apply (.v r mask val)).getV r) &&& ~~~mask = th.getV r &&& ~~~mask ∧
    (∀ q, q ≠ r → (th.apply (.v r mask val)).getV q = th.getV q) ∧
    (∀ v, th.apply (.x 0 v) = th) ∧ (∀ k v, th.apply (.m 0 k v) = th) ∧ th.getX 0 = 0 ∧ th.getM 0 = BitVec.allOnes 64

/-- R107, R124, R194, R348, R410: the ends of a division, of a floating-point divide or root, of a park for enabled
exceptions, and of a FENCE.SC. -/
def Obligations.ParkedArithmeticEnds : Prop :=
  ∀ (s : State) (t : Tid) (th : Thread), s.thread? t = some th → th.id = t →
    (∀ d v, th.run = .parked (.divide d v) → exec (.divideComplete t) s =
      .next (Statements.completes s (th.landRegs.setX d v))) ∧
    (th.run = .parked .fpPark → exec (.fpexcParkEnd t) s = .next (Statements.completes s th)) ∧
    (∀ n, th.run = .parked (.scFence n) → exec (.scFenceComplete t) s =
      .next (Statements.completes s { th with gapUntil := max th.gapUntil (s.ticks + 1) })) ∧
    (∀ ds fl, th.run = .parked (.fpEnd ds fl) →
      (fl &&& th.enables = 0 → exec (.fpDivSqrtComplete t) s =
        .next (((s.putThread (ds.foldl (fun u d => u.apply d) th.landRegs)).setFlags t s.ticks (fl.setWidth 64 <<< 3)).wake t)) ∧
      (fl &&& th.enables ≠ 0 → exec (.fpDivSqrtComplete t) s =
        .next ((s.putThread { th with csr := { th.csr with fcsr := th.csr.fcsr ||| (fl.setWidth 64 <<< 3) } }).trapParked t
          .fpexc (fl.setWidth 64))))

/-- R34, R159, R174, R176: an access whose parts all have their values ends: a part without an answer traps; a poisoned part traps with
POISON under PTE, a vector load having set FCSR.POISON first, and else sets FCSR.POISON; poisoned cells are counted; the destination is written. -/
def Sys2Proof.Statements.AccessesEnd : Prop :=
  ∀ (s : State) (t : Tid) (th : Thread) (a : Access), s.thread? t = some th → th.id = t → (∀ d, a.dst ≠ .spawn d) →
    let counted := s.count th.asid 8 (a.lanes.flatMap (·.pois)).eraseDups.length
    (∀ l k, a.lanes.find? (·.fail.isSome) = some l → l.fail = some k →
      s.finishAccess t a = s.trapParked t k l.addr) ∧
    ((∀ l ∈ a.lanes, l.fail = none) → (∀ l ∈ a.lanes, l.pois = []) →
      s.finishAccess t a = Statements.completes counted (a.write th)) ∧
    ((∀ l ∈ a.lanes, l.fail = none) → ∀ l, a.lanes.find? (fun l => l.pois ≠ []) = some l →
      (a.pte = true → (∃ d n sg, a.dst = .x d n sg) →
        s.finishAccess t a = counted.trapParked t .poison (l.addr - BitVec.ofNat 64 (l.bit / 8))) ∧
      (a.pte = true → (∃ d, a.dst = .v d) →
        s.finishAccess t a = (counted.setPoison t).trapParked t .poison (l.addr &&& ~~~7)) ∧
      (a.pte = false → s.finishAccess t a = ((counted.setPoison t).modThread t a.write).wake t))

/-- R174, R302, R399: data that comes back ends the access once it is the last; a load of the thread's own store is performed there when
its time is up. -/
def Sys2Proof.Statements.ResponsesEndAccesses : Prop :=
  ∀ (s : State) (t : Tid) (th : Thread) (a : Access), s.thread? t = some th → th.id = t → th.run = .parked (.access a) →
    (∀ port, port ≠ t.core →
      let a1 := { a with lanes := a.lanes.map (fun l =>
        if routeOf t.core l.locs = .port port ∧ l.val.isSome = true then { l with back := true } else l) }
      let kept := s.putThread { th with run := .parked (.access a1) }
      ((∀ l ∈ a1.lanes, l.val.isSome = true ∧ l.back = true) → exec (.loadResponse ⟨t, port⟩) s = .next (kept.finishAccess t a1)) ∧
      ((∃ l ∈ a1.lanes, l.val = none ∨ l.back = false) → exec (.loadResponse ⟨t, port⟩) s = .next kept)) ∧
    (∀ l n, a.lanes = [l] → l.op = .load n → l.val = none → l.atUnit = false → th.csr.detlvl = 0 →
      routeOf t.core l.locs = .own →
      let x := s.loadFwd th l.locs
      let a1 := { a with lanes := [{ l with val := some x.1, pois := x.2, atUnit := false, back := true }] }
      exec (.loadResponse ⟨t, t.core⟩) s = .next (((s.mayCorrect th.asid (keyOfLocs (l.locs.map (s.ploc t.core)))).keepAccess t
        a1).finishAccess t a1))

/-- R34, R173, R174: a load reads memory where no buffered store of the thread covers it, zero when it touches a poisoned cell, whose
number is noted; the newest buffered store of all its bytes is forwarded to it. -/
def Sys2Proof.Statements.LoadsSeeMemoryAndTheirStores : Prop :=
  ∀ (s : State) (th : Thread) (k n : Nat), 0 < n → k % 8 + n ≤ 8 →
    let locs := (List.range n).map (fun i => ByteLoc.dram (k + i))
    (th.sbuf = [] → s.loadFwd th locs =
      if s.mem.poisoned (k / 8) = true then (0, [k / 8])
      else (BitVec.ofNat 64 (leNat ((List.range n).map (fun i => s.mem.read (k + i)))), [])) ∧
    (∀ before e p v, th.sbuf = before ++ [e] → e.parts = [p] → p.done = false → p.op = .store n v → p.locs = locs →
      s.loadFwd th locs = (BitVec.ofNat 64 (v.toNat % 2 ^ (8 * n)), []))

/-- R174: an access writes, behind pending register writes, the value, extended to 64 bits, or its lanes of the vector register, zero for a
poisoned lane. -/
def Sys2Proof.Statements.AccessesWriteTheirDestination : Prop :=
  ∀ (th : Thread) (a : Access) (l : Lane) (w : W64), a.lanes = [l] → l.val = some w →
    let r := if l.pois = [] then w else 0
    (∀ d n sg, a.dst = .x d n sg → n ∈ [1, 2, 4, 8] → opSize l.op = n → l.bit = 0 → a.write th = th.landRegs.setX d
      (if sg then (r.extractLsb' 0 (8 * n)).signExtend 64 else (r.extractLsb' 0 (8 * n)).setWidth 64)) ∧
    (∀ d, a.dst = .v d → l.op = .load 8 → l.bit % 64 = 0 → l.bit < 512 → ∀ k, k < 8 →
      Statements.lane 64 ((a.write th).getV d) k =
        if k = l.bit / 64 then r else Statements.lane 64 (th.landRegs.getV d) k)

/-- R173, R218, R302, R303, R399: a store of the own store is performed when its time is up, and its entry freed with its last
acknowledgement; parts that waited then set out. A held store takes its place in order when released. An error that a read of the cell meets
may have been corrected (log 61: a free value). -/
def Sys2Proof.Statements.StoresArePerformed : Prop :=
  ∀ (s : State) (t : Tid) (th : Thread) (id : Nat) (before : List StoreEntry) (e : StoreEntry), s.thread? t = some th → th.id = t →
    findEntry id [] th.sbuf = some (before, e) →
    (∀ p, e.parts = [p] → (∀ b ∈ th.sbuf, id ≤ b.id) → routeOf t.core p.locs = .own → p.out = true → p.done = false →
      e.ownDue ≤ s.ticks →
      let ps := p.locs.map (s.ploc t.core)
      exec (.storePerformed ⟨t, t.core⟩ id) s =
        .next (((s.performAt ps p.op false).2.mayCorrect th.asid (keyOfLocs ps)).freed t id)) ∧
    (∀ port, port ≠ t.core →
      let e1 := { e with parts := e.parts.map (fun (p : StorePart) =>
        if routeOf t.core p.locs = Route.port port ∧ p.done = true then { p with acked := true } else p) }
      exec (.storePerformed ⟨t, port⟩ id) s =
        .next (if e1.parts.all (·.acked) then s.freed t e.id
          else if e1.parts.all (·.out) then s.modThread t (·.setEntry e1)
          else (s.modThread t (·.setEntry e1)).sendEntry t e1)) ∧
    exec (.heldStoreRelease t id) s =
      .next ((s.putThread { th with
        sbuf := th.sbuf.filter (fun x => !(x.id == id)) ++ [{ e with held := none, rel := false }] }).sendStores t)

/-- R402: a port performs the packets of one source in the order of their numbers; one ahead of its predecessor waits. A plain load, or a store
in one part, is performed at once and answered; what comes back to a core is an event of its own. -/
def Sys2Proof.Statements.PacketsInOrder : Prop :=
  (∀ (s : State) (src port n : Nat) (op : PortOp), s.xbar.early = [] →
    let key := src * 8192 + port
    let here := { s with xbar := { s.xbar with early := [(key, n, op)] } }
    (s.xbar.expected.getD key 0 = n →
      let done := fun (s1 : State) => { s1 with xbar := { s1.xbar with
        early := s1.xbar.early.filter (fun x => !(x.1 == key && x.2.1 == n)),
        expected := s1.xbar.expected.put key ((n + 1) % 65536) } }
      (∀ s1, here.atPort src port op = (none, none, s1) → exec (.crossbarPacketArrival src port n op) s = .next (done s1)) ∧
      (∀ s1 e, here.atPort src port op = (none, some e, s1) → (∀ m, (done s1).waitsAt key m = none) →
        exec (.crossbarPacketArrival src port n op) s = .next ((done s1).nextNow [e])) ∧
      (∀ s1 op1 e, here.atPort src port op = (some op1, e, s1) → exec (.crossbarPacketArrival src port n op) s =
        .next (({ s1 with xbar := { s1.xbar with
          early := s1.xbar.early.map (fun (x : Nat × Nat × PortOp) => if x.1 = key ∧ x.2.1 = n then (key, n, op1) else x) } }).after_ 1
            (s.portRank op1) (.crossbarPacketArrival src port n op1)))) ∧
    (s.xbar.expected.getD key 0 ≠ n → exec (.crossbarPacketArrival src port n op) s = .next here)) ∧
  (∀ (s : State) (src port : Nat), (∀ a, s.atPort src port (.data a) = (none, some (.loadResponse a), s)) ∧
    ∀ a id, s.atPort src port (.ack a id) = (none, some (.storePerformed a id), s)) ∧
  (∀ (s : State) (t : Tid) (th : Thread) (src port : Nat), s.thread? t = some th → th.id = t →
    (∀ a l n, th.run = .parked (.access a) → a.lanes = [l] → l.op = .load n → l.val = none → l.atUnit = false →
      th.csr.detlvl = 0 → routeOf t.core l.locs = .port port →
      let x := s.loadFwd th l.locs
      let a1 := { a with lanes := [{ l with val := some x.1, pois := x.2, atUnit := false }] }
      s.atPort src port (.loadOf t 0) = (none, none, ((s.mayCorrect th.asid (keyOfLocs (l.locs.map (s.ploc t.core)))).keepAccess t
        a1).sendBack th port a.bounded n th.issuedAt (.data ⟨t, port⟩))) ∧
    (∀ id before e p, findEntry id [] th.sbuf = some (before, e) → e.parts = [p] → p.out = true → p.done = false →
      routeOf t.core p.locs = .port port →
      let ps := p.locs.map (s.ploc t.core)
      s.atPort src port (.storeOf t id 0) = (none, none, (((s.performAt ps p.op false).2.mayCorrect th.asid
        (keyOfLocs ps)).modThread t (·.setEntry { e with parts := [{ p with done := true }] })).sendBack th port e.bounded 0 e.born
          (.ack ⟨t, port⟩ e.id))))

/-- R398, R400, R401, R403, R405: a packet has at most four beats, and a home channel carries one of them in a tick. A tick that a
plan claims is for the oldest packet of the plan's kernel at the plan's station, or stays empty; a bounded tick is for the oldest
bounded packet of the tick's station; in the other ticks the packet that holds the token sends its beats, unless a bounded packet
must go that its bounded ticks cannot carry in time (log 104: the model's choice). Nothing of memory or of a thread changes in the
network. -/
def Sys2Proof.Statements.HomeChannelsCarryBeats : Prop :=
  (∀ n, 1 ≤ beatsOf n ∧ beatsOf n ≤ 4 ∧ (n ≤ 512 → n ≤ 128 * beatsOf n)) ∧
  (∀ (s : State) (t h : Nat),
    (∀ k st, s.claimOf t h = some (k, st) → t % 4 ≠ 3 ∧
      (∀ p, (s.waitingAt st h).find? (fun p => p.kernel == some k) = some p → s.channelTick t h = (true, s.sendBeat t p)) ∧
      ((∀ p ∈ s.waitingAt st h, p.kernel ≠ some k) → s.channelTick t h = (true, s))) ∧
    (∀ l p r, t % 4 = 3 → s.waitingAt ((t - 3) / 4 % 12) h = l ++ p :: r → p.bounded = true → s.isPlanned p = false →
      (∀ x ∈ l, x.bounded = false ∨ s.isPlanned x = true) → s.channelTick t h = (true, s.sendBeat t p)) ∧
    (t % 4 ≠ 3 → s.claimOf t h = none → s.channelTick t h =
      match s.urgent h with | some p => (true, s.sendBeat t p) | none => (false, s)) ∧
    (∀ k p, s.xbar.tokens.find? h = some k → k.held = some p.id → s.xbar.pkts = [p] → p.place = .station k.pos →
      (s.tokenTick t h false).xbar.pkts = [p] ∧
      (1 < p.beats → (s.tokenTick t h true).xbar.pkts = [{ p with beats := p.beats - 1 }] ∧
        (s.tokenTick t h true).xbar.tokens.find? h = some k))) ∧
  (∀ (s : State) (t : Nat) (p : NetPkt),
    let becomes := fun (y : NetPkt) => (s.sendBeat t p).xbar.pkts = s.xbar.pkts.map (fun x => if x.id = p.id then y else x)
    (1 < p.beats → becomes { p with beats := p.beats - 1 }) ∧
    (p.beats ≤ 1 → ∃ n, n ≤ 4 ∧ becomes { p with beats := 0, place := .light, ready := t + 1 + n }) ∧
    (s.netTick t).mem = s.mem ∧ (s.netTick t).threads = s.threads ∧ (s.netTick t).ticks = s.ticks)

/-- R34, R159, R173, R174, R176, R218, R398, R400 to R402, R405: accesses end and stores are performed; the crossbar's channels. -/
def Obligations.AccessesAndStoresComplete : Prop :=
  Statements.AccessesEnd ∧ Statements.ResponsesEndAccesses ∧ Statements.LoadsSeeMemoryAndTheirStores ∧
    Statements.AccessesWriteTheirDestination ∧ Statements.StoresArePerformed ∧ Statements.PacketsInOrder ∧
    Statements.HomeChannelsCarryBeats

/-- R180 to R182, R304, R305: a waiting full/empty access is examined at every change of its cell and 64 ticks after its last
examination, once in a tick, at the cell that the bank in force gives. One that fails is counted, and traps with FETIMEOUT, its address in TVAL, when the count reaches
FERETRY.LIMIT; one that succeeds leaves its list. A refused access is examined again at its place, where its retry counts; the end
of either is known at once at the own store, and from a port once the answer is back (R399). -/
def Obligations.FullEmptyWaitsAreExamined : Prop :=
  (∀ (s : State) (w : FeEntry) (t : Tid) (th : Thread) (a : Access) (l : Lane), s.waits = [w] → w.last < s.ticks → w.local_ = some t →
    w.remote = none → s.thread? t = some th → th.run = .parked (.feWait a w.id) → a.lanes = [l] →
    let gone := { s with waits := [] }
    let ps := w.locs.map (s.ploc w.issuer)
    let goes := fun (r : State) =>
      (w.last + 64 ≤ s.ticks → exec (.feReexamine w.id) s = .next r) ∧ exec (.feChangeReexamine (cellOfLocs ps)) s = .next r
    ((s.performAt ps w.op false).1 = .fails → w.count + 1 < w.limit →
      goes ({ s with waits := [{ w with count := w.count + 1, last := s.ticks }] }.after_ 64 rankFe (.feReexamine w.id))) ∧
    ((s.performAt ps w.op false).1 = .fails → w.limit ≤ w.count + 1 → goes (gone.feEnds t a 0 (some .fetimeout))) ∧
    (∀ v p s1, s.performAt ps w.op false = (.value v p, s1) →
      goes (State.feEnds { (s1.mayCorrect w.asid (keyOfLocs ps)) with waits := [] } t a v none))) ∧
  (∀ (s : State) (t : Tid) (th : Thread) (a : Access) (l : Lane) (n : Nat), s.thread? t = some th →
    th.run = .parked (.feRefused a n) → a.lanes = [l] →
    let ps := l.locs.map (s.ploc t.core)
    (∀ p, routeOf t.core l.locs = .port p → (∃ s', exec (.feRetry t) s = .next s' ∧
      s' = s.packet th p a.bounded 8 (portTail p (isView l.addr) false) (.loadOf t 0)) ∧
      ∀ src due, s.atPort src p (.loadOf t due) = (none, none, s.feAgain t a n)) ∧
    ((∀ p, routeOf t.core l.locs ≠ .port p) → exec (.feRetry t) s = .next (s.feAgain t a n)) ∧
    (∀ v p s1, s.performAt ps l.op a.pte = (.value v p, s1) →
      s.feAgain t a n = (s1.mayCorrect (((s1.thread? t).map (·.asid)).getD 0) (keyOfLocs ps)).feEnds t a v none) ∧
    ((s.performAt ps l.op a.pte).1 = .fails → a.limit ≤ n + 1 → s.feAgain t a n = s.feEnds t a 0 (some .fetimeout)) ∧
    ((s.performAt ps l.op a.pte).1 = .fails → n + 1 < a.limit → s.feAgain t a n = s.feFails t a l (n + 1))) ∧
  (∀ (s : State) (t : Tid) (th : Thread) (a : Access) (l : Lane) (v : W64) (f : Option Cause), s.thread? t = some th → th.id = t →
    a.lanes = [l] →
    let a1 := { a with lanes := [{ l with val := some v, fail := f }] }
    (∀ p, routeOf t.core l.locs = .port p → s.feEnds t a v f =
      (s.keepAccess t a1).sendBack th p a.bounded 8 th.issuedAt (.data ⟨t, p⟩)) ∧
    ((∀ p, routeOf t.core l.locs ≠ .port p) → s.feEnds t a v f = s.finishAccess t a1 ∧
      ∀ k, f = some k → s.feEnds t a v f = s.trapParked t k l.addr))

/-- R188, R189, R322, R323, R396: an atomic unit accepts an update with the stamp, name and number of its thread, whose result is 0, or
refuses it when buffer and overflow area are full; the updates of a unit stay in the order of stamp, issuer and number; the lowest
stamped below the LWM is applied at its cell and leaves, one each 2 ticks; a load waits while its cell has updates, and from then on
until the LWM has reached its VTIME and no update below it is left. -/
def Obligations.DeterministicUpdates : Prop :=
  (∀ (s : State) (t : Tid) (th : Thread) (a : Access) (l : Lane) (f : AmoOp) (b : W64), s.thread? t = some th →
    th.run = .parked (.access a) → a.lanes = [l] → l.op = .amo f b →
    let key := keyOfLocs (l.locs.map (s.ploc t.core))
    let full := 16 ≤ s.detCount (channelOf key) false ∧ 65536 ≤ s.detCount (channelOf key) true
    (full → exec (.detAtomicAccept t) s = .next (s.feEnds t a 0 (some .refused))) ∧
    (¬full → ∃ s', exec (.detAtomicAccept t) s = .next s' ∧ s'.det =
      insertDet { channel := channelOf key, asid := th.asid, cell := key, op := f, b := b, stamp := th.csr.vtime,
                  name := s.ni.peer * 2 ^ 19 + t.core * 64 + t.slot, prog := th.detCount - 1, order := s.sched.ids,
                  overflow := decide (16 ≤ s.detCount (channelOf key) false) } s.det ∧
      (∀ port, routeOf t.core l.locs = .port port → th.id = t →
        s'.waiting? t = some (.access { a with lanes := [{ l with val := some 0, fail := none }] })))) ∧
  (∀ (e : DetEntry) (l : List DetEntry), l.Pairwise (fun a b => b.before a = false) →
    (insertDet e l).Pairwise (fun a b => b.before a = false) ∧ (insertDet e l).Perm (e :: l)) ∧
  (∀ (s : State) (ch : Nat),
    (s.nextUpdate ch = none → exec (.detAtomicApply ch) s = .next s) ∧
    (∀ e, s.nextUpdate ch = some e → e.channel = ch ∧ e ∈ s.det ∧
      (∃ c, s.ctx? e.asid = some c ∧ e.stamp.toNat < (if c.spans then c.domLwm else c.lwm).toNat) ∧
      (s.detLast.getD ch 0 ≠ 0 → s.ticks < s.detLast.getD ch 0 + 2 →
        exec (.detAtomicApply ch) s = .next (s.armUnit ch s.ticks)) ∧
      (s.detLast.getD ch 0 = 0 ∨ s.detLast.getD ch 0 + 2 ≤ s.ticks → exec (.detAtomicApply ch) s =
        .next ((({ s with detLast := s.detLast.put ch s.ticks }).applyUpdate e).retryDet.armUnit ch (s.ticks + 2))))) ∧
  (∀ (s : State) (e : DetEntry), e.cell % 8 = 0 →
    let s1 := s.applyUpdate e
    let old := BitVec.ofNat 64 (leNat ((List.range 8).map (fun i => s.mem.read (e.cell + i))))
    (∀ i, i < 8 → s1.mem.read (e.cell + i) = (amoFn e.op old e.b).extractLsb' (8 * i) 8) ∧
    (∀ k, ¬(e.cell ≤ k ∧ k < e.cell + 8) → s1.mem.read k = s.mem.read k) ∧
    s1.det = s.det.filter (fun x => x.order != e.order)) ∧
  (∀ (s : State) (c : Ctx) (v : W64) (ps : List PLoc) (parked : Bool),
    let here := fun (e : DetEntry) => e ∈ s.det ∧ ∃ p ∈ ps, e.cell / 8 ∈ p.cells
    (s.detHolds c v ps parked = true ↔ (parked = true ∨ ∃ e, here e) ∧
      ((if c.spans then c.domLwm else c.lwm).toNat < v.toNat ∨ ∃ e, here e ∧ e.stamp.toNat < v.toNat)))

/-- R176, R217 to R220, R349: a region closes at its instant, its held stores going out and its elapsed ticks to xd; at its
maximum the outermost entry overruns into its handler; a handler region at its maximum ends the context; a lost store is
reported at the next boundary; a trap still pending since whose decision a loss was detected, or at the boundary one of another
cause, is abandoned for it, and an abandoned report goes back to its place in the order of the stores. -/
def Obligations.RegionEventsAndLostStores : Prop :=
  ∀ (s : State) (t : Tid) (th : Thread), s.thread? t = some th → th.id = t →
    (∀ d n, th.run = .parked (.tclose d n) → exec (.tcloseCloseInstant t) s =
      .next (((s.releaseHeld t th.regions.length).modThread t (fun u =>
        { u with regions := u.regions.drop 1, gapUntil := max u.gapUntil (s.ticks + 1) })).wakeX t d (BitVec.ofNat 64 n))) ∧
    (∀ d r, th.overrunning s.ticks = some (d, r) → r.hnd = false → th.run ≠ .stopped →
      exec (.overrun t) s = .next (s.overrunEntry t d r)) ∧
    (∀ r l, th.regions = r :: l → r.hnd = true → r.openTick + r.max = s.ticks → (∀ q ∈ l, q.hnd = false) →
      (∀ d n, th.run ≠ .parked (.tclose d n)) →
      exec (.handlerOverrun t) s = .next (s.fatalThread th .handleroverrun
        (BitVec.ofNat 64 r.max ||| (BitVec.ofNat 64 (l.length + 1) <<< 32)) (s.faultPc th))) ∧
    (let reports := fun (u : Thread) (x : Nat × Nat × W64) (r : List (Nat × Nat × W64)) => Host.Outcome.next
      (((s.putThread { u with lost := r }).trap t .storelost x.2.2 u.pc).modThread t (fun v =>
        { v with entry := v.entry.map (fun e => { e with lost := some x }) }))
     (∀ x r, th.lost = x :: r → th.entry = none → s.sched.cur = some t → exec (.storeLost t) s = reports th x r) ∧
     (∀ e, th.entry = some e → e.hit = true ∨ s.sched.cur = some t ∧ e.lost = none → ∀ x r,
       (match e.lost with | some y => insertLost y th.lost | none => th.lost) = x :: r →
       exec (.storeLost t) s = reports { th with
         csr := { th.csr with tepc := e.tepc, tcause := e.tcause, tval := e.tval }, pc := e.pc, gapUntil := e.gap,
         entry := none } x r))

/-- R219: what an overrun leaves of a thread outside a gang whose wait it withdraws or that waits for nothing: TEPC is the
word that stands next, TCAUSE and TVAL say which entry, the entries from it on give way to the handler's region, and control
is at the handler. -/
def Obligations.OverrunEntersTheHandler : Prop :=
  ∀ (s : State) (t : Tid) (th : Thread) (d : Nat) (r : Region), s.thread? t = some th → th.id = t → th.gang = .none →
    th.run = .ready → th.entry = none → 1 ≤ d → d ≤ th.regions.length →
    let desc := r.desc * 4
    let w0 := (s.codeWord t.core desc).toNat
    let hbound := (s.codeWord t.core (desc + 4)).toNat
    ∃ u, (s.overrunEntry t d r).thread? t = some u ∧
      u.csr.tepc.toNat = th.pc / 4 % 2 ^ 16 * 4 ∧ u.csr.tcause.toNat = 0x109 ∧
      u.csr.tval = (BitVec.ofNat 64 r.max ||| (BitVec.ofNat 64 d <<< 32)) ∧
      u.pc = w0 / 4 % 2 ^ 16 * 4 ∧ s.ticks + 1 ≤ u.gapUntil ∧ th.gapUntil ≤ u.gapUntil ∧
      u.regions = { openTick := s.ticks, min := 0, max := hbound, hold := false, hnd := true, desc := 0 } ::
        th.regions.drop (th.regions.length + 1 - d) ∧
      u.x = th.x ∧ u.v = th.v ∧ u.m = th.m ∧ u.csr.vtime = th.csr.vtime ∧ u.csr.fcsr = th.csr.fcsr

/-! ### Threads, rows, messages and copies under way (spec 08, 09, 10, 17, 19) -/

/-- R45, R200: what a child created by SPAWN holds: the entry as pc, the parent's FCSR without its sticky bits, VTIME, TVEC, CHK,
FERETRY, DETLVL and CAP, the arguments in x4 and on, every other register zero, and no region. -/
def Sys2Proof.Statements.ChildStartsWith : Prop :=
  ∀ (p : Thread) (n : Tid) (o : Occ) (entry now : Nat) (args : List W64), args.length = 8 → o.xsize ≤ 128 →
    let u := childOf p n o entry args now
    u.pc = entry ∧ u.id = n ∧ u.asid = p.asid ∧ u.kernel = p.kernel ∧ u.run = .ready ∧ u.regions = [] ∧ u.sbuf = [] ∧
    u.csr.fcsr = p.csr.fcsr &&& ~~~0x80F8 ∧ u.csr.vtime = p.csr.vtime ∧ u.csr.tvec = p.csr.tvec ∧ u.csr.chk = p.csr.chk ∧
    u.csr.feretry = p.csr.feretry ∧ u.csr.detlvl = p.csr.detlvl ∧ u.csr.tepc = 0 ∧ u.csr.tcause = 0 ∧ u.csr.tval = 0 ∧
    u.cap = p.cap ∧ u.cancel = p.cancel ∧ u.xsize = o.xsize ∧ u.vsize = o.vsize ∧ u.wheel = o.wheel ∧
    (∀ k : XReg, u.getX k =
      if 4 ≤ k.toNat ∧ k.toNat < 12 ∧ k.toNat < o.xsize then args.getD (k.toNat - 4) 0 else 0) ∧
    (∀ k, u.getV k = 0) ∧ (∀ k, k ≠ 0 → u.getM k = 0) ∧ ∀ k, u.getF k = 0

/-- R200: what follows once the nine words of a descriptor have landed: a bad first word is ILLEGAL, an entry without code PROTECT,
and else the placement takes at least four ticks here, or the child travels to its core behind at least three; then no room gives −1
in xd, and else the child stands in its slot and its name is in xd. -/
def Sys2Proof.Statements.ChildrenArePlaced : Prop :=
  ∀ (s : State) (t : Tid) (th : Thread) (c : Ctx) (d : XReg) (ws : List W64), s.thread? t = some th →
    s.ctx? th.asid = some c →
    let w := ws.headD 0
    let k := childDesc t.core w
    (th.run = .parked (.spawn d ws false) →
      (childIllegal c w k = true → exec (.spawnPlacement t) s = .next (s.trapParked t .illegal w)) ∧
      (childIllegal c w k = false → c.loaded k.entry = false →
        exec (.spawnPlacement t) s = .next (s.trapParked t .protect (BitVec.ofNat 64 k.entry))) ∧
      (childIllegal c w k = false → c.loaded k.entry = true →
        let waits := (s.thDraw th 0 4).2.modThread t (fun u => { u with run := .parked (.spawn d ws true) })
        (k.core = t.core → ∃ n, 4 ≤ n ∧ exec (.spawnPlacement t) s = .next (waits.after_ n rankLast (.spawnPlacement t))) ∧
        (k.core ≠ t.core → ∃ n, 3 ≤ n ∧ exec (.spawnPlacement t) s =
          .next (waits.portPacket t.core k.core false (s.plannedKernel th.kernel) 72 n 0 rankLast false (.child t)) ∧
          ∀ (x : State) src port, x.atPort src port (.child t) = (none, some (.spawnPlacement t), x)))) ∧
    (th.run = .parked (.spawn d ws true) →
      (placeOn (s.occupied k.core) k.xsize k.vsize k.wheel = none →
        exec (.spawnPlacement t) s = .next (s.wakeX t d (BitVec.allOnes 64))) ∧
      (∀ o, placeOn (s.occupied k.core) k.xsize k.vsize k.wheel = some o →
        let n : Tid := { core := k.core, slot := o.slot }
        exec (.spawnPlacement t) s =
          .next ((s.putThread (childOf th n o k.entry (ws.drop 1) s.ticks)).wakeX t d (threadReg s.ni.peer n))))

/-- R200: a SPAWN whose descriptor has landed keeps its words, and looks at them in the same tick. -/
def Sys2Proof.Statements.SpawnReadsItsDescriptor : Prop :=
  ∀ (s : State) (t : Tid) (th : Thread) (a : Access) (d : XReg), s.thread? t = some th → th.id = t → a.dst = .spawn d →
    (∀ l ∈ a.lanes, l.fail = none ∧ l.pois = []) →
    ∃ s1 : State, s.finishAccess t a = s1.sched_ s.ticks (rankArrive (globalName s.ni.peer t)) (.spawnPlacement t) ∧
      s1.waiting? t = some (.spawn d (a.lanes.map (fun l => l.val.getD 0)) false)

/-- R203, R205, R219, R411, R440: a phase that closed completes its members; word of another package that a phase has opened opens
it here, or, from the earlier first arrival, gives the phase its set and kind anew, after an arrival that has gone to the root has been
taken back; another package's arrivals are noted and may close the phase, or are given back; the root's completion closes an open
phase with the root's largest VTIME and wakes its members at once. -/
def Sys2Proof.Statements.BarriersComplete : Prop :=
  ∀ (s : State) (asid g peer : Nat) (v : W64),
    let r := s.group asid g
    let s0 := s.modCtx asid Ctx.spanning
    let r0 := s0.group asid g
    let peers := if r0.peers.contains peer then r0.peers else r0.peers ++ [peer]
    let others := r0.remote.filter (fun x => x.1 != peer)
    (∀ p rest, r.done = p :: rest → exec (.barrierComplete asid g) s =
      .next ((s.putGroup asid g { r with done := rest }).finishPhase g p).pollAll) ∧
    exec (.barrierArrivalNotice asid g peer (.arrived v)) s =
      .next ((s0.putGroup asid g { r0 with peers := peers, remote := others ++ [(peer, v)] }).phaseCheck asid g).pollAll ∧
    (∀ tick tide,
      let first := tick < r0.openAt.1 ∨ tick = r0.openAt.1 ∧ peer < r0.openAt.2
      (r0.isOpen = false → exec (.barrierArrivalNotice asid g peer (.opened tick tide)) s =
        .next ((s0.openPhase asid g tide (tick, peer)).phaseCheck asid g).pollAll) ∧
      (r0.isOpen = true → ¬first → exec (.barrierArrivalNotice asid g peer (.opened tick tide)) s =
        .next (s0.putGroup asid g { r0 with peers := peers }).pollAll) ∧
      (r0.isOpen = true → first → r0.sent = false → exec (.barrierArrivalNotice asid g peer (.opened tick tide)) s =
        .next ((s0.putGroup asid g { r0 with peers := peers }).reopened asid g peer tick tide).pollAll) ∧
      (r0.isOpen = true → first → r0.sent = true →
        let waits := s0.putGroup asid g { r0 with peers := peers, reopen := some (peer, tick, tide) }
        exec (.barrierArrivalNotice asid g peer (.opened tick tide)) s =
          .next (State.pollAll (if r0.reopen.isSome then waits
            else waits.tell (s0.rootOf { r0 with peers := peers }) (.arrival asid g .recall))))) ∧
    ((∃ x ∈ r0.remote, x.1 = peer) → exec (.barrierArrivalNotice asid g peer .recall) s =
      .next ((s0.putGroup asid g { r0 with remote := others }).tell peer (.arrival asid g .recalled))) ∧
    ((∀ x ∈ r0.remote, x.1 ≠ peer) → exec (.barrierArrivalNotice asid g peer .recall) s = .next s0) ∧
    (let back := r0.recalls.foldl State.cameBack (s0.putGroup asid g { r0 with
       sent := false, recalls := [], arrivals := r0.arrivals.filter (fun a => !r0.recalls.contains a.tid) })
     (r0.reopen = none → exec (.barrierArrivalNotice asid g peer .recalled) s = .next back) ∧
     (∀ p tick tide, r0.reopen = some (p, tick, tide) → exec (.barrierArrivalNotice asid g peer .recalled) s =
       .next (back.reopened asid g p tick tide).pollAll)) ∧
    (r.isOpen = true →
      let p : Phase := { arrivals := r.arrivals, tide := r.tide, top := v }
      let s1 := s.closePhase asid g p
      exec (.barrierCompletionNotice asid g v) s =
        .next ((s1.putGroup asid g { s1.group asid g with done := r.done }).finishPhase g p).pollAll) ∧
    (r.isOpen = false → exec (.barrierCompletionNotice asid g v) s = .next s)

/-- R45, R200, R203, R205, R411, R440: children are placed and barriers complete. -/
def Obligations.ChildrenAndBarriers : Prop :=
  Statements.ChildStartsWith ∧ Statements.ChildrenArePlaced ∧ Statements.SpawnReadsItsDescriptor ∧ Statements.BarriersComplete

/-- R226, R227, R235, R241, R244, R250, R373: with four arrivals and room in its queue a row starts jointly: the cores' places free,
and the four threads wake, or all trap when the joint checks fail; with four instructions queued the start waits. The
instruction started stands last in the queue; MXCFG and MXSCL take effect at once. -/
def Sys2Proof.Statements.RowsStartJointly : Prop :=
  ∀ (s : State) (row : Nat) (arr : List (Tid × Arrival)), s.rowArrivals row = some arr →
    let freed := (List.range 4).foldl (fun st c => st.modCore (4 * row + c) CoreRec.nextArrival) s
    let wanted := arr.any (fun p => p.2.fn ≠ .cfg && p.2.fn ≠ .scl)
    let as := arr.map (·.2)
    (wanted = true → 4 ≤ (s.row row).queue.length → exec (.matrixStart row) s = .next s) ∧
    (wanted = false ∨ (s.row row).queue.length < 4 →
      (s.startFault row as = none → exec (.matrixStart row) s =
        .next (((arr.foldl (fun (st : State) (p : Tid × Arrival) => st.wake p.1) freed).startEffect row arr).armStart row)) ∧
      (∀ k v, s.startFault row as = some (k, v) → exec (.matrixStart row) s =
        .next ((arr.foldl (fun (st : State) (p : Tid × Arrival) => st.trapParked p.1 k v) freed).armStart row)) ∧
      (∀ a l, as = a :: l → s.startFault row as = none → ∃ s', exec (.matrixStart row) s = .next s' ∧ s'.mem = s.mem ∧
        (a.fn ≠ .cfg → a.fn ≠ .scl →
          (s'.row row).queue.map (·.arrs) = (s.row row).queue.map (·.arrs) ++ [as] ∧
          ∃ f, (s'.row row).queue.getLast? = some f ∧ f.arrs = as ∧ f.tids = arr.map (·.1) ∧ f.kdone = 0 ∧ f.flags = 0 ∧
            f.opnds = []) ∧
        (a.fn = .zero ∨ a.fn = .acld → (s'.row row).types.getD a.slot 0 = BitVec.ofNat 2 (fld a.xa 3 2)) ∧
        (a.fn = .cfg → (s'.row row).cfg = a.xa ∧ (s'.row row).queue = (s.row row).queue) ∧
        (a.fn = .scl → ∀ c, c < 4 → ∀ b, as[c]? = some b → (s'.core (4 * row + c)).decl =
          { mode := BitVec.ofNat 2 (fld b.xa 0 2), shift := fld b.xa 2 5, xb := b.xb })))

/-- R235 to R240, R363, R372, R373: the row array reads cells of the first k-block, or of the next one while one is computed, and with
the last of them the k-block stands in the operand registers and its boundary comes. A boundary starts the block at their head,
or sums the computed one into every entry or window when the next is at hand or none is to follow. Memory, threads and the other
rows stay, flags are only gained, and once the instruction has no reads left the releases that waited for them go on. -/
def Sys2Proof.Statements.KBlocksAreSummed : Prop :=
  ∀ (s : State) (row : Nat) (f : InFlight) (q : List InFlight) (a : Arrival) (l : List Arrival),
    (s.row row).queue = f :: q → f.arrs = a :: l → f.begun = true → f.kdone < f.blocks →
    let live := s.rowLive f
    let more := f.kdone + 1 < f.blocks
    let goes := fun (d : Nat) (held : List OpBlock) (also : State → InFlight → Prop) => ∃ s1 f',
      exec (.kBlockBoundary row) s = .next (if f.readsLeft = true then s1 else s1.readsOver f.tids) ∧
      (s1.row row).queue = f' :: q ∧ f'.kdone = f.kdone + d ∧ f'.opnds = held ∧
      f'.arrs = f.arrs ∧ f'.tids = f.tids ∧ f.flags &&& f'.flags = f.flags ∧ (f.poison = true → f'.poison = true) ∧
      s1.mem = s.mem ∧ s1.threads = s.threads ∧ (∀ r, r ≠ row → s1.row r = s.row r) ∧ also s1 f'
    let stays := fun (s1 : State) (f' : InFlight) =>
      f'.flags = f.flags ∧ (s1.row row).acc = (s.row row).acc ∧ f'.open_ = f.open_
    (f.opnds = [] ∨ s.ticks < f.endAt → exec (.kBlockBoundary row) s = .next s) ∧
    (∀ o rest, f.opnds = o :: rest →
      (f.endAt = 0 → goes 0 f.opnds (fun s1 f' => s.ticks < f'.endAt ∧ stays s1 f')) ∧
      (f.endAt ≠ 0 → f.endAt ≤ s.ticks → rest = [] → more → live = true →
        goes 0 f.opnds (fun s1 f' => f'.endAt = f.endAt ∧ stays s1 f')) ∧
      (f.endAt ≠ 0 → f.endAt ≤ s.ticks → ¬(rest = [] ∧ more ∧ live = true) →
        goes 1 (if live = true ∨ ¬more then rest else []) (fun s1 f' => ∀ r n, r < 32 → n < 128 →
          let path := (mxPath a.fmtA a.fmtB).getD .int
          let key := (a.slot * 32 + r) * 128 + n
          let pairs := (lineVals a.fmtA (o.a.getD r [])).zip (lineVals a.fmtB (o.b.getD n []))
          let y := entryBlock f a path o pairs r n (f.accIn (s.row row) a key).toNat (f.open_.getD (r * 128 + n) Partial.zero)
          o.a.length = 32 → o.b.length = 128 →
          f'.open_.getD (r * 128 + n) Partial.zero = y.2.1 ∧
          (s1.row row).acc.getD key 0 = if path = .tree ∨ path = .block then BitVec.ofNat 64 y.1 else (s.row row).acc.getD key 0))) ∧
    (∀ n, f.kdone + f.opnds.length < f.blocks → f.opnds.length < 2 → f.endAt ≠ 0 ∨ live = true →
      let got := (f.part.headD []).length
      let upto := if f.cells ≤ got + n then f.items else got + n
      let part := (List.range 4).map (fun c => f.part.getD c [] ++
        (List.range (upto - got)).map (fun i => s.mxItem row f (f.kdone + f.opnds.length) c (got + i)))
      ∃ f', ((s.fetchCells row f a n).row row).queue = f' :: q ∧ (s.fetchCells row f a n).mem = s.mem ∧ f'.kdone = f.kdone ∧
        (upto ≠ f.items → f'.opnds = f.opnds ∧ f'.part = part) ∧
        (upto = f.items → f'.opnds = f.opnds ++ [opBlock a part] ∧ f'.part = [] ∧
          (s.ticks, rankEngine, Instr.kBlockBoundary row) ∈ (s.fetchCells row f a n).sched.timers))

/-- R226, R233, R245, R250, R254, R378: a completion takes the running instruction out of its row, after its results, which are all in
the row array or in memory by then; its flags, and poison that it met, go to its threads and are seen from the next tick on; releases
that waited for its reads go on. -/
def Sys2Proof.Statements.MatrixInstructionsComplete : Prop :=
  ∀ (s : State) (row : Nat) (f : InFlight) (q : List InFlight) (a : Arrival) (l : List Arrival),
    (s.row row).queue = f :: q → f.arrs = a :: l → f.begun = true → f.blocks ≤ f.kdone →
    ∃ s1 : State, exec (.matrixComplete row) s = .next (s1.readsOver f.tids) ∧ (s1.row row).queue.map (·.arrs) = q.map (·.arrs) ∧
      s1.ticks = s.ticks ∧ s1.mem = s.mem ∧
      (a.fn = .zero → ∀ r n, r < 32 → n < 128 → (s1.row row).acc.getD ((a.slot * 32 + r) * 128 + n) 0 = 0) ∧
      (s.keyed = true → ∀ t ∈ f.tids, ∀ u, s.thread? t = some u → ∃ u', s1.thread? t = some u' ∧
        let lands := fun (n : Nat) => ∃ p ∈ u'.pend, p.due = s.ticks + 1 ∧ ∃ b, p.dst = .flags b ∧ b.getLsbD n = true
        (∀ n, f.flags.getLsbD n = true → lands (n + 3)) ∧ (f.poison = true → lands 15))

/-- R226, R227, R233, R235 to R239, R245, R250, R254, R373: the events of a row array. -/
def Obligations.RowArraysWork : Prop :=
  Statements.RowsStartJointly ∧ Statements.KBlocksAreSummed ∧ Statements.MatrixInstructionsComplete

/-- R264, R267, R268, R381, R383, R385 to R388: a header of another package, of a live DET0 context, next in its pair, whose rank
is here, waits while its match unit is busy or others wait there; else it binds to the first posted receive that matches, else joins the unexpected
queue with eager units when there is room, else is refused, by name of what lacked. -/
def Sys2Proof.Statements.HeadersAreMatched : Prop :=
  ∀ (s : State) (h : Header) (c : Ctx) (e : RankEntry), s.ctx? h.asid = some c → c.phase = .live → c.level = 0 →
    s.numberTaken (headerPair h) h.seq = false → s.rank? h.drank = some e → e.peer = s.ni.peer → e.transit = false →
    s.rxe.nextSeq.getD (headerPair h) 0 = h.seq → h.srcPeer ≠ s.ni.peer → (h.via ≠ none ∨ s.ticks ≤ h.expires) →
    h.target = s.ni.peer → s.firstOfSender h = none →
    (s.unitFree (dieOf e.core) = false → exec (.headerArrival h) s =
      .next { s with rxe := { s.rxe with waiting := s.rxe.waiting ++ [(dieOf e.core, .header h)] } }) ∧
    (s.unitFree (dieOf e.core) = true →
      (∀ l r l', s.rxe.posted = l ++ r :: l' → r.matches h = true → (∀ x ∈ l, x.matches h = false) →
        ∃ s' d, exec (.headerArrival h) s = .next s' ∧ s'.rxe.posted = l ++ l' ∧ s'.rxe.unexp = s.rxe.unexp ∧
          s'.rxe.landings = s.rxe.landings ++ [d] ∧ d.hdr = h ∧ d.recv = r) ∧
      ((∀ r ∈ s.rxe.posted, r.matches h = false) → s.queueRefuses h = none →
        ∃ s', exec (.headerArrival h) s = .next s' ∧ s'.rxe.unexp = s.rxe.unexp ++ [{ s.withUnits h with via := none }] ∧
          s'.rxe.posted = s.rxe.posted ∧ s'.rxe.landings = s.rxe.landings) ∧
      (∀ why, (∀ r ∈ s.rxe.posted, r.matches h = false) → s.queueRefuses h = some why →
        ∃ s', exec (.headerArrival h) s = .next s' ∧ s'.rxe.unexp = s.rxe.unexp ∧ s'.rxe.posted = s.rxe.posted ∧
          s'.rxe.landings = s.rxe.landings ∧ s'.ni.msgs = s.ni.msgs ++ [match h.via with
            | some v => (v.1, .refused v.2 why)
            | none => (h.srcPeer, .refused h.sendId why)]))

/-- R263, R264, R274, R281, R383, R385: the events of a message at its sender, and the notice of an abandoned number, which is
answered when it comes from another package, or goes on to the package of a rank that has migrated. -/
def Sys2Proof.Statements.SendersProgress : Prop :=
  ∀ (s : State) (id : Nat) (m : SendRec), s.send? id = some m → s.forwarded? id = none →
    (m.accepted = false → m.fate = .underWay → exec (.headerResend id) s = .next (s.stageSend m).pollAll) ∧
    exec (.sendBoundExpiry id) s = .next ((s.sendExpired m).tryRetire m.kernel).pollAll ∧
    (s.asker? id = none → exec (.acceptanceReply id) s = .next ((s.acceptKnown id).tryRetire m.kernel).pollAll) ∧
    (∀ asid a b n peer sid,
      let told := fun (x : State) (o : MsgOut) => if peer = s.ni.peer then x else x.tell peer o
      let here := ∀ e, s.rank? b = some e → e.peer = s.ni.peer
      (∀ e, s.rank? b = some e → e.peer ≠ s.ni.peer →
        exec (.abandonNotice asid a b ⟨n, peer, sid⟩) s = .next (s.tell e.peer (.abandon asid a b ⟨n, peer, sid⟩))) ∧
      (here → s.numberTaken (pairKey asid a b) n = true →
        exec (.abandonNotice asid a b ⟨n, peer, sid⟩) s = .next (told s (.accepted sid))) ∧
      (here → s.numberTaken (pairKey asid a b) n = false → exec (.abandonNotice asid a b ⟨n, peer, sid⟩) s =
        .next (told (({ s with rxe := { s.rxe with
          staged := s.rxe.staged.filter (fun h => !(headerPair h == pairKey asid a b && h.seq == n)),
          refusals := s.rxe.refusals.filter (fun r => !(r.pair == pairKey asid a b && r.seq == n)) } }).takeNumber
            (pairKey asid a b) n) (.abandoned sid)))) ∧
    (∀ n, s.rxe.landings = [] →
      let s1 := s.mailAdd m.hdr.tid.core m.hdr.cmbox
      let s2 := if m.accepted && !(s1.waiter? id).isSome then s1.dropSend id else s1.setSend { m with counted := true }
      exec (.rendezvousPullRead id n) s = .next (s2.tryRetire m.kernel).pollAll)

/-- R34, R269, R274, R311, R385, R386: the events of a landing: its status words with STAT0's cell full; the parts of its packets at the
homes of their bytes, from an eager unit, from the message's payload, or as another package pushes them, which wait for the status
and go on from their gateway; with the last part of a packet the mailbox increment; and the pull of a rendezvous payload, here or for
another package, through the streamer of its source's channel. -/
def Sys2Proof.Statements.LandingsProgress : Prop :=
  (∀ (s : State) (id : Nat) (l : Landing), s.landing? id = some l →
    let c := viewsOnly l.recv.views
    (let stat0 : W64 := BitVec.ofNat 64 l.hdr.tag.toNat ||| (BitVec.ofNat 64 l.hdr.srank <<< 32) |||
       (if l.recv.maxlen < l.hdr.len then 1#64 <<< 48 else 0)
     let s1 := s.engineWrite c l.recv.writer (l.recv.desc + 40) (leBytes 8 l.hdr.len) false
     let s2 := s1.engineWrite c l.recv.writer (l.recv.desc + 32) (leBytes 8 stat0.toNat) true
     let l1 := { l with status := true }
     exec (.statusFill id) s = .next (((s2.setLanding l1).setOut l1 (s.landingHome l)).startNext l.hdr.asid)) ∧
    (∀ q d, q ∈ l.packets →
      ((q, d.home) ∈ l.homes → exec (.packetLanding id q d) s = .next (s.landPart l q d)) ∧
      (s.pushed l = true → (∀ x ∈ l.homes, x.1 ≠ q) → (∀ x ∈ l.held, x.1 ≠ q) →
        (l.status = true → exec (.packetLanding id q d) s =
          .next (s.setOutPacket l q (gateHome + s.gate l.hdr.srcPeer) 0 d)) ∧
        (l.status = false → exec (.packetLanding id q d) s = .next (s.setLanding { l with held := l.held ++ [(q, d)] })))) ∧
    (l.hdr.srcPeer ≠ s.ni.peer → exec (.pullRequest (.landing id)) s = .next (s.tell l.hdr.srcPeer (.pull
      { peer := s.ni.peer, landing := id, sendId := l.hdr.sendId, len := l.bytes, dest := l.recv.dest, mbox := l.recv.mbox,
        fill := l.recv.fill, tid := l.hdr.tid, cmbox := l.hdr.cmbox }))) ∧
    (l.hdr.srcPeer = s.ni.peer → l.bytes = 0 →
      exec (.pullRequest (.landing id)) s = .next (s.later 0 rankLand (.rendezvousPullRead l.hdr.sendId 0))) ∧
    (l.hdr.srcPeer = s.ni.peer → l.bytes ≠ 0 → ∃ s' r, exec (.pullRequest (.landing id)) s = .next s' ∧
      s'.copies = s.copies ++ [r] ∧ r.pull = some id ∧ r.src = l.hdr.saddr ∧ r.dst = l.recv.dest ∧ r.len = l.bytes ∧
      r.dcore = l.recv.core)) ∧
  (∀ (s : State) (p : FarPull) (m : SendRec), s.send? p.sendId = some m →
    (p.len = 0 → exec (.pullRequest (.far p)) s =
      .next ((s.tell p.peer (.payload p.landing 0 [] [])).later 0 rankLand (.rendezvousPullRead p.sendId 0))) ∧
    (p.len ≠ 0 → ∃ s' r, exec (.pullRequest (.far p)) s = .next s' ∧ s'.copies = s.copies ++ [r] ∧ r.far = some p ∧
      r.pull = none ∧ r.src = m.hdr.saddr ∧ r.dst = p.dest ∧ r.len = p.len)) ∧
  (∀ (s : State) (l : Landing) (q : Nat) (d : LandPart),
    let n := min 512 (l.bytes - 512 * q)
    let os := ((List.range n).map (512 * q + ·)).filter (fun o => s.landsHome l o == d.home)
    let u := s.unitBytes l.hdr q n
    let bytes := if s.pushed l = true then (d.bytes, d.pois) else if l.units = true then (u.1, l.hdr.pois ++ u.2)
      else ((l.hdr.payload.drop (512 * q)).take n, l.hdr.pois)
    let fresh := if l.units = true ∧ s.pushed l = false then (u.2.filter os.contains).length else 0
    let written := ((s.count l.hdr.asid 8 fresh).count l.hdr.asid 10 (bytes.2.filter os.contains).length).writePlaces
      (viewsOnly l.recv.views) l.recv.writer l.recv.dest (os.map (fun o => (o, bytes.1.getD (o - 512 * q) 0))) l.recv.fill
    let left := l.homes.filter (· != (q, d.home))
    ((∃ e ∈ left, e.1 = q) → s.landPart l q d = written.setLanding { l with homes := left }) ∧
    ((∀ e ∈ left, e.1 ≠ q) → s.landPart l q d = written.packetDone l q)) ∧
  (∀ (s : State) (l : Landing) (q : Nat),
    let done := fun (x : State) => (((x.mailAdd l.recv.core l.recv.mbox).setLanding { l with
      packets := l.packets.filter (· != q), homes := l.homes.filter (fun e => e.1 != q) }).startNext l.hdr.asid).pollAll
    (l.units = false → s.packetDone l q = done s) ∧
    (∀ u, l.units = true → l.hdr.units[q]? = some u → s.packetDone l q = done (s.freeUnit u)))

/-- R263 to R281, R381 to R388: messages under way. -/
def Obligations.MessagesProgress : Prop :=
  Statements.HeadersAreMatched ∧ Statements.SendersProgress ∧ Statements.LandingsProgress

/-- R389, R394: a request joins its streamer's queue, with its bound, or is retried 64 ticks later when 512 are there. -/
def Sys2Proof.Statements.RequestsJoinAStreamer : Prop :=
  ∀ (s : State) (id : Nat) (r : CopyReq), s.copy? id = some r → r.queued = false → (∀ x ∈ s.copies, x.id = id → x = r) →
    let joins := fun (o : Host.Outcome State Fault Refusal) =>
      (512 ≤ (s.atStreamer r.channel).length → o = .next (s.after_ 64 rankEngine (.streamerRetry r.id))) ∧
      ((s.atStreamer r.channel).length < 512 →
        let ahead := ((s.atStreamer r.channel).map CopyReq.srcLen).sum + r.srcLen
        let bound := s.ticks + (1200 + (r.slen + 15) / 16 + (ahead + 63) / 64)
        let r1 := { r with queued := true,
                           limit := if r.far.isNone && (r.pull.isNone || (!bit r.dst 63 && fld r.dst 61 2 = 1)) then bound else r.limit }
        o = .next { s with copies := s.copies.filter (fun x => !(x.id == r.id)) ++ [r1] })
    joins (exec (.copyRequestArrival id) s) ∧ joins (exec (.streamerRetry id) s)

/-- R389 to R391: a turn of a request takes the next 512 bytes of its source, in the streamer's order; what lies in the streamer's own
channel is read at once, poisoned cells marked, and the request leaves progress with its last turn (the model's reading, log 112).
Reading changes no memory. -/
def Sys2Proof.Statements.TurnsReadTheSource : Prop :=
  ∀ (s : State) (r : CopyReq),
    (∀ n port,
      (s.readTurn r n port).2.mem = s.mem ∧
      ∀ t, r.got[n]? = some t → (s.readTurn r n port).1.got[n]? = some { t with
        data := (t.data ++ (s.turnPlaces r n port).map (fun e => (e.1, s.mem.readP e.2, e.2.cells.any s.mem.poisoned))) }) ∧
    (∀ now, s.turnPorts r r.got.length = [streamerPort r.channel] →
      let r1 := { r with got := r.got ++ [(⟨[], []⟩ : CopyTurn)], active := decide (512 * (r.got.length + 1) < r.srcLen) }
      let x := (s.setCopy r1).readTurn r1 r.got.length (streamerPort r.channel)
      s.takeTurn r now = x.2.goTurns r x.1)

/-- R276, R278, R370, R389 to R392, R394: a copy joins its streamer's queue, or is retried 64 ticks later when 512 are there; its
source is read in turns; its scale tile takes the row's side band, 16 bytes in a tick and one tile at a time, when its section has
room, and is placed once it has crossed; without room the copy gives up its place in progress; each chunk lands and sets its bit, or is dropped as poisoned, at once where no matrix instruction of the row may hold
it back, and else no later than its bound. -/
def Obligations.CopiesProgress : Prop :=
  Statements.RequestsJoinAStreamer ∧ Statements.TurnsReadTheSource ∧
  ∀ (s : State) (id : Nat) (r : CopyReq), s.copy? id = some r →
    (r.tilePlaced = false →
      (s.placeTile r = none → r.tileDue ≤ s.ticks → exec (.scaleTilePlace id) s =
        .next (s.setCopy (if r.limit = 0 then { r with tileDue := 0 }
          else { r with active := false, tileDue := 0, limit := 0, span := r.limit - s.ticks }))) ∧
      (∀ s1, s.placeTile r = some s1 → r.tileDue = 0 →
        let due := max s.ticks (s.row (r.dcore / 4)).band + (r.slen + 15) / 16
        exec (.scaleTilePlace id) s = .next (((s.modRow (r.dcore / 4) (fun w => { w with band := due })).setCopy
          { r with tileDue := due }).sched_ due rankEngine (.scaleTilePlace r.id))) ∧
      (∀ s1, s.placeTile r = some s1 → r.tileDue ≠ 0 → r.tileDue ≤ s.ticks → exec (.scaleTilePlace id) s =
        .next (s1.setCopy { r with tilePlaced := true, limit := if r.limit = 0 then s.ticks + r.span else r.limit }))) ∧
    (∀ n, n ∈ r.chunks →
      let lands := fun (x : State) => exec (.chunkLanding id n) s = .next (x.landChunk r n).pollAll
      ((s.row (r.dcore / 4)).queue = [] → r.rowIds = [] ∨ r.limit ≤ s.ticks → lands s) ∧
      ((s.row (r.dcore / 4)).queue = [] → r.rowIds ≠ [] → s.ticks < r.limit →
        ((s.draw 2).1 = 0 → lands (s.draw 2).2) ∧
        ((s.draw 2).1 ≠ 0 → exec (.chunkLanding id n) s =
          .next ((s.draw 2).2.later (r.limit - s.ticks) rankLand (.chunkLanding id n)))) ∧
      ((s.landChunk r n).chunkMap r.dcore r.map).landed ||| ((s.landChunk r n).chunkMap r.dcore r.map).poisoned =
        ((s.chunkMap r.dcore r.map).landed ||| (s.chunkMap r.dcore r.map).poisoned ||| (1#64 <<< (r.m0 + n))))

/-! ### Global accesses and migration (spec 07, 14, 23) -/

/-- R317, R318, R320, R433, R434, R436, R437, R452: of the requests that arrive one for another package is dropped and counted, a recorded
one answered from the record, an old one dropped, one ahead waits, a late one is abandoned; the next one is translated: an access asked back leaves
the waits; a miss, a missing right and a migrate page with a place are answered; others cross to their channel. -/
def Sys2Proof.Statements.RequestsAreTranslated : Prop :=
  ∀ (s0 : State) (r : GReq),
    let s := s0.hear r.src
    let runs := fun (x : State) => exec (.globalRequestArrival r) s0 = .next x
    let next := s.ni.high.getD r.src 0
    let ahead := (r.seq + 2 ^ 32 - next) % 2 ^ 32
    let late : Bool := decide (r.ts + s.fabric.dbound.toNat < s.ticks + 65536)
    (r.target ≠ s.ni.peer → runs (s.count r.asid 14 1)) ∧
    (r.target = s.ni.peer →
      (∀ a, s.recorded r.src r.seq = some (some a) → runs (s.respond r.src r.seq r.asid r.tid a r.bounded)) ∧
      (s.recorded r.src r.seq = some none → runs s) ∧
      (s.recorded r.src r.seq = none → s.ni.early = [] → r.seq < 2 ^ 32 →
        (2 ^ 31 ≤ ahead → runs s) ∧
        (ahead < 2 ^ 31 → r.seq ≠ next → runs { s with ni := { s.ni with early := [(r, late)] } }) ∧
        (r.seq = next → late = true → runs (s.recordReq r.src r.seq none)) ∧
        (∀ c, r.seq = next → late = false → s.ctx? r.asid = some c → c.phase = .live →
          (∀ n, r.op = .withdraw n →
            (s.waits = [] → runs (s.answerReq r .ack)) ∧
            (∀ w q, s.waits = [w] → w.remote = some q → q.src = r.src → q.seq = n →
              runs (((({ s with waits := [] }).recordAnswer r.src n .withdrawn).respond r.src n r.asid r.tid .withdrawn
                q.bounded).answerReq r .ack))) ∧
          ((∀ n, r.op ≠ .withdraw n) → s.walk c r.va = none → runs (s.answerReq r .noXlate)) ∧
          (∀ leaf, (∀ n, r.op ≠ .withdraw n) → s.walk c r.va = some leaf →
            let refused := ((opRights r.op).1 = true ∧ bit leaf.1 2 = false) ∨ ((opRights r.op).2 = true ∧ bit leaf.1 3 = false)
            let migrates := bit leaf.1 4 = true ∧ opStores r.op = false ∧ r.nomig = false ∧
              (r.src = s.ni.peer ∨ s.landingPlace c r.xsize r.wheelCount ≠ none)
            (refused → runs (s.answerReq r .protect)) ∧
            (¬refused → migrates → runs (s.answerReq r .migrate)) ∧
            (¬refused → ¬migrates → runs (s.crossReq r (leafAddr leaf r.va)))))))

/-- R177, R181, R182, R188, R189, R433, R434: at its channel an update is accepted or refused, a load held under it or answered, any other
access answered with what it gives at its cell; one whose condition fails waits, or ends. -/
def Sys2Proof.Statements.RequestsArePerformed : Prop :=
  (∀ (s0 : State) (r : GReq) (key : Nat) (c : Ctx),
    let s := s0.mayCorrect r.asid key
    let ps := reqLocs r key
    let done := fun (x : State) => s0.performCross r key = x
    s.ctx? r.asid = some c →
    (c.phase = .ended ∨ c.phase = .destroying → done (s.count r.asid 14 1)) ∧
    (c.phase = .live →
      (∀ f b d, r.op = .amo f b → r.det = some d →
        let take := s.detAccept r.asid key f b d.1 (globalName r.src r.tid) d.2
        (take = none → done (s.chanAnswer r key .refusedUpdate)) ∧ (∀ s1, take = some s1 → done (s1.chanAnswer r key .ack))) ∧
      (∀ n, r.op = .load n →
        (∀ d, r.det = some d → s.detHolds c d.1 ps false = true →
          done { s with ni := { s.ni with atUnit := s.ni.atUnit ++ [(r, key)] } }) ∧
        ((∀ d, r.det = some d → s.detHolds c d.1 ps false = false) →
          done ((s.readReq r key).2.chanAnswer r key (s.readReq r key).1))) ∧
      ((∀ n, r.op ≠ .load n) → r.det = none →
        (∀ v p s1, s.performAt ps r.op r.pte = (.value v p, s1) →
          done (s1.chanAnswer r key (if opStores r.op then .ack else if p then .poisoned else .value v))) ∧
        (∀ s1, s.performAt ps r.op r.pte = (.fails, s1) →
          let asked := r.src = s.ni.peer ∧ (s.thread? r.tid).any s.withdraws = true
          let waits := s.enterWait ((List.range 8).map (fun i => .dram (key + i))) 0 r.op r.limit 0 r.asid none (some r)
          (asked → done (s.chanAnswer r key .withdrawn)) ∧
          (¬asked → r.limit = 0 → done (s.chanAnswer r key .timeout)) ∧
          (¬asked → r.limit ≠ 0 → waits = none → done (s.chanAnswer r key .refusedFull)) ∧
          (∀ x, ¬asked → r.limit ≠ 0 → waits = some x → done x.2))))) ∧
  (∀ (s : State) (r : GReq) (key : Nat), r.src ≠ s.ni.peer →
    s.readReq r key = (if s.mem.anyPoison (reqLocs r key) then .poisoned else .value (s.mem.readPs (reqLocs r key)),
      s.mayCorrect r.asid key)) ∧
  (∀ (s : State) (r : GReq) (key src port : Nat) (b : Bool), s.ni.crossing = [(r, key, b)] →
    s.atPort src port (.access r.src r.seq) =
      (none, none, ({ s with ni := { s.ni with crossing := [] } }).performCross r key)) ∧
  (∀ (s : State) (src port p seq asid : Nat) (tid : Tid) (res : GResult) (b : Bool),
    s.atPort src port (.answer p seq asid tid res b) = (none, none, s.respond p seq asid tid res b))

/-- R182, R433 to R435, R452: an answer for another package is dropped and counted; those of a peer are taken
in order, each once, and end their requests, a queue's access at the NI; a full list has the access sent again 64 ticks later. -/
def Sys2Proof.Statements.AnswersAreTaken : Prop :=
  (∀ (s0 : State) (r : GResp),
    let s := s0.hear r.peer
    let comes := fun (x : State) => exec (.globalResponseArrival r) s0 = .next x
    let next := s.ni.respNext.getD r.peer 0
    let ahead := (r.num + 2 ^ 32 - next) % 2 ^ 32
    (r.target ≠ s0.ni.peer → comes (s0.count r.asid 14 1)) ∧
    (r.target = s0.ni.peer → s.ni.respEarly = [] →
      (2 ^ 31 ≤ ahead → comes s) ∧
      (ahead < 2 ^ 31 → r.num ≠ next → comes { s with ni := { s.ni with respEarly := [r] } }) ∧
      (r.num = next → comes (({ s with ni := { s.ni with
        respEarly := [], respNext := s.ni.respNext.put r.peer ((next + 1) % 2 ^ 32) } }).takeAnswer r)))) ∧
  (∀ (s : State) (r : GResp),
    (s.outReq? r.peer r.seq = none → s.takeAnswer r = s) ∧
    (∀ o, s.outReq? r.peer r.seq = some o →
      let s1 := s.dropReq r.peer r.seq
      let again := r.result = .refusedFull ∧ (s.thread? o.req.tid).any s.withdraws = false
      (∀ q, o.queue = some q → s.takeAnswer r = (s1.queueAnswered q (r.peer, r.seq) (some r.result)).injectAll) ∧
      (o.queue = none → again → s.takeAnswer r =
        (s1.after_ 64 (rankArrive (globalName s.ni.peer o.req.tid)) (.niRetry r.peer r.seq)).injectAll) ∧
      (o.queue = none → ¬again → s.takeAnswer r = (s1.sendReply o r.result).injectAll)))

/-- R43, R176, R181, R320, R433: at the core a miss or a missing right ends the context; a store's part is performed; one asked back or refused by a full list is withdrawn; all others go to the lane that waits. -/
def Sys2Proof.Statements.AnswersEndAccesses : Prop :=
  ∀ (s : State) (src port : Nat) (r : GReq) (store : Option Nat),
    let t := r.tid
    let got := fun (res : GResult) (x : State) => s.atPort src port (.reply r store res) = (none, none, x)
    (∀ res c, (res = .noXlate ∧ c = Cause.noxlate) ∨ (res = .protect ∧ c = Cause.protect) →
      ∀ th, s.thread? t = some th → got res (s.fatalThread th c (at_ 1 63 ||| at_ r.target 52 ||| r.va) (s.faultPc th))) ∧
    (∀ id, store = some id → got .ack (s.storeAnswered r.asid t id (r.target, r.seq) false)) ∧
    (∀ a m, store = none → s.waiting? t = some (.access a) → r.op = .withdraw m → s.outReq? r.target m = none →
      a.laneOf (r.target, m) ≠ none → got .ack ((s.cancelTimer (.niRetry r.target m)).cameBack t)) ∧
    (∀ a i, store = none → s.waiting? t = some (.access a) → (∀ m, r.op ≠ .withdraw m) → a.laneOf (r.target, r.seq) = some i →
      got .withdrawn (s.cameBack t) ∧ got .refusedFull (s.cameBack t) ∧
      (∀ v, got (.value v) (s.laneAnswered t a i v false none)) ∧
      got .ack (s.laneAnswered t a i 0 false none) ∧
      got .poisoned (s.laneAnswered t a i 0 true none) ∧
      got .timeout (s.laneAnswered t a i 0 false (some .fetimeout)) ∧
      got .refusedUpdate (s.laneAnswered t a i 0 false (some .refused)) ∧
      got .migrate (s.sched_ s.ticks rankEngine (.migrationAnswer t r.target (s.fitsHere r))))

/-- R176, R189, R437: at its delivery bound, put off while an atomic unit may hold its load, a request is given up, with NOPEER for what only reads, else
STORELOST. -/
def Sys2Proof.Statements.RequestsExpire : Prop :=
  ∀ (s : State) (p n : Nat), s.ni.respEarly = [] →
    (s.outReq? p n = none → exec (.deliveryBoundExpiry p n) s = .next s) ∧
    (∀ o, s.outReq? p n = some o → o.sent = false → exec (.deliveryBoundExpiry p n) s = .next s) ∧
    (∀ o, s.outReq? p n = some o → o.sent = true → o.gone = false →
      let due := (if s.heldAtUnit o.req then s.ticks + 1 else max o.req.ts o.heldTo) + s.fabric.dbound.toNat +
        if isWaiting o.req.op then 64 * o.req.limit else 0
      (s.ticks < due → exec (.deliveryBoundExpiry p n) s = .next (s.sched_ due rankLast (.deliveryBoundExpiry p n))) ∧
      (due ≤ s.ticks → o.queue = none → o.req.target = p → p ≠ s.ni.peer →
        let s1 := s.dropReq p n
        (∀ id, o.store = some id → exec (.deliveryBoundExpiry p n) s =
          .next (s1.storeAnswered o.req.asid o.req.tid id (p, n) true).injectAll) ∧
        (∀ a i, o.store = none → s1.waiting? o.req.tid = some (.access a) → a.laneOf (p, n) = some i →
          exec (.deliveryBoundExpiry p n) s = .next (s1.laneAnswered o.req.tid a i 0 false
            (some (if opReads o.req.op then .nopeer else .storelost))).injectAll)))

/-- R181, R182, R425, R435, R447: a request goes again by the other direction of one dimension's ring, counted at the port by which it leaves,
and every 65,536 ticks until answered; which link has failed is free (log 123). One refused by a full list goes again, with one
retry less. -/
def Sys2Proof.Statements.RequestsRepeat : Prop :=
  (∀ (s : State) (o : OutReq) (dim : Nat),
    let k := (o.req.target, o.req.seq)
    (dim ∈ o.otherDir → s.resend o dim = s) ∧
    (dim ∉ o.otherDir → s.resend o dim =
      (((s.cancelTimer (.requestResend k.1 k.2)).modReq k.1 k.2 (fun x => { x with
        otherDir := o.otherDir ++ [dim], route := s.routeTo k.1 (o.otherDir ++ [dim]) })).countResent k.1 k.2).after_ 65536 rankLast
          (.requestResend k.1 k.2))) ∧
  (∀ (s : State) (p n : Nat),
    (s.outReq? p n = none → exec (.requestResend p n) s = .next s) ∧
    (∀ o, s.outReq? p n = some o →
      (o.sent = false → exec (.requestResend p n) s = .next s) ∧
      (o.sent = true → o.otherDir = [] → o.route = [] → exec (.requestResend p n) s = .next s) ∧
      (∀ l ls, o.sent = true → o.otherDir = [] → o.route = l :: ls →
        let d := s.draw (l :: ls).length
        exec (.requestResend p n) s = .next (d.2.resend o (((l :: ls).getD d.1 l).2 / 2))) ∧
      (o.sent = true → o.otherDir ≠ [] →
        (∀ e ∈ s.sched.timers, e.2.2 ≠ .requestResend p n) →
        exec (.requestResend p n) s = .next ((s.countResent p n).after_ 65536 rankLast (.requestResend p n))) ∧
      (∀ e ∈ s.sched.timers, o.sent = true → o.otherDir ≠ [] → e.2.2 = .requestResend p n →
        exec (.requestResend p n) s = .next s)) ∧
    (s.laneOwner (p, n) = none → exec (.niRetry p n) s = .next s) ∧
    (∀ t a th, s.laneOwner (p, n) = some (t, a) → s.thread? t = some th →
      exec (.niRetry p n) s = .next (s.reissue t (p, n) (a.limit - 1) th.landed true))) ∧
  (∀ (s : State) (p n : Nat) (o : OutReq) (l : Coord × Nat) (ls : List (Coord × Nat)), s.outReq? p n = some o → o.route = l :: ls →
    s.countResent p n = s.modPort l.2 (fun r => { r with resent := r.resent + 1 }))

/-- R320, R321: a thread answered by migration goes when it has at most 32 x registers, no v register, gang, open region, group or posted
receive of its ranks; else it asks for data. -/
def Sys2Proof.Statements.ThreadsMigrate : Prop :=
  ∀ (s : State) (t : Tid) (th : Thread) (a : Access) (l : Lane) (p n : Nat) (fits : Bool), s.thread? t = some th →
    th.run = .parked (.access a) → a.lanes = [l] → l.val = none → l.sent = some (p, n) →
    let s1 := s.dropReq p n
    let may := th.xsize ≤ 32 ∧ th.vsize = 0 ∧ th.gang = .none ∧ th.regions = [] ∧ s1.membersOf th.id = [] ∧
      ∀ r ∈ s.rxe.posted, r.drank ∉ s1.ranksOf th.id.core
    (fits = false ∨ ¬may → exec (.migrationAnswer t p fits) s = .next (s1.reissue t (p, n) a.limit true false)) ∧
    (fits = true → may → exec (.migrationAnswer t p fits) s =
      .next ((((s1.ranksOf t.core).foldl (fun st r => st.setRank r (st.ni.ranks.getD r 0 ||| at_ 1 25)) s1).modThread t
        (fun u => { u with run := .parked (.transit p a) })).shipThread t p))

/-- R29, R320, R321, R337, R396: a thread that lands takes a slot of the lowest core that fits, with its registers, cap, cancellation and count of
updates; its access issues next, after its gap;
its ranks point to it, its source package hears of it. One that no core takes goes back. -/
def Sys2Proof.Statements.ThreadsLand : Prop :=
  (∀ (s : State) (m : SmallCtx) (c : Ctx), m.landed = none → m.back = false → s.ctx? m.asid = some c → c.phase = .live →
    (∀ x ∈ s.ni.transits, x.ctx.home ≠ m.home) →
    (∀ core o, s.landingPlace c m.xs.length m.wheelCount = some (core, o) →
      exec (.migrationLanding m) s = .next (s.landsAt m core o)) ∧
    (s.landingPlace c m.xs.length m.wheelCount = none →
      exec (.migrationLanding m) s = .next (s.tell m.home.1 (.context { m with back := true })))) ∧
  (∀ (s : State) (m : SmallCtx) (core : Nat) (o : Occ),
    let t : Tid := { core := core, slot := o.slot }
    let th := smallThread s.ni.peer m t o s.ticks
    let s' := s.landsAt m core o
    s'.thread? t = some th ∧ (∀ r ∈ m.ranks, s'.ni.ranks.getD r 0 = at_ s.ni.peer 0 ||| at_ core 11 ||| at_ 1 24) ∧
    (m.home.1 ≠ s.ni.peer → (m.home.1, MsgOut.context { m with landed := some (s.ni.peer, core) }) ∈ s'.ni.msgs)) ∧
  (∀ (own : Nat) (m : SmallCtx) (t : Tid) (o : Occ) (now : Nat),
    let th := smallThread own m t o now
    th.id = t ∧ th.pc = m.pc ∧ th.run = .ready ∧ th.gapUntil = max (now + 1) m.gap ∧ th.regions = [] ∧ th.sbuf = [] ∧
      th.cap = m.cap ∧ th.cancel = m.cancel ∧ th.detCount = m.detCount ∧
      th.csr.vtime = m.vtime ∧ th.csr.fcsr = m.fcsr ∧ th.csr.tvec = m.tvec ∧
      (∀ (i : Nat) v, i ≠ 0 → i < 128 → m.xs[i]? = some v → th.getX (BitVec.ofNat 7 i) = v)) ∧
  (∀ (s : State) (m : SmallCtx) (p core : Nat), m.landed = some (p, core) → p ≠ s.ni.peer →
    exec (.migrationLanding m) s = .next (s.landedElsewhere m p core))

/-- Global accesses and migration. -/
def Obligations.GlobalAccessesAndMigration : Prop :=
  Statements.RequestsAreTranslated ∧ Statements.RequestsArePerformed ∧ Statements.AnswersAreTaken ∧ Statements.AnswersEndAccesses ∧
    Statements.RequestsExpire ∧ Statements.RequestsRepeat ∧ Statements.ThreadsMigrate ∧ Statements.ThreadsLand

/-! ### Marks, storage errors and counters (spec 01, 14, 15, 16, 20, 22) -/

/-- The least word of a list, or a default. -/
def Sys2Proof.Statements.isLeast (l : List W64) (w : W64) : Prop := w ∈ l ∧ ∀ x ∈ l, w.toNat ≤ x.toNat

/-- R341, R412: the sample of a context is the least VTIME of its threads here, in transit and saved, and of its launches not
fully created; with none the published mark stays. The SWM's sample is the oldest access in flight, or now. -/
def Sys2Proof.Statements.MinTreeSamples : Prop :=
  ∀ (s : State), ∃ s', exec .minTreeSample s = .next s' ∧ s' = { s with ctxs := s'.ctxs, swmSample := s'.swmSample } ∧
    (∀ n ∈ s.inFlight, s'.swmSample ≤ n) ∧ s'.swmSample ≤ s.ticks ∧ (s'.swmSample = s.ticks ∨ s'.swmSample ∈ s.inFlight) ∧
    ∀ a c, s.ctx? a = some c → ∃ c', s'.ctx? a = some c' ∧ c' = { c with sample := c'.sample } ∧
      (s.lwmInputs c = [] → c'.sample = c.lwm) ∧ (s.lwmInputs c ≠ [] → Statements.isLeast (s.lwmInputs c) c'.sample)

/-- R27, R32, R341: at a publication no mark falls; with nothing that waits for a mark, only the marks change. -/
def Sys2Proof.Statements.MarksArePublished : Prop :=
  ∀ (s : State), s.det = [] → s.ni.atUnit = [] → s.ni.out = [] → s.quarantine = [] → s.queues = [] →
    (∀ e ∈ s.ctxs, e.2.phase ≠ .destroying ∧ e.2.level = 0) →
    (∀ e ∈ s.threads, ∀ a, e.2.run = .parked (.access a) → ∀ l ∈ a.lanes, l.atUnit = false) →
    exec .lwmPublication s = .next { s with
      swm := max s.swm s.swmSample,
      ctxs := s.ctxs.map (fun e => (e.1, { e.2 with lwm := if e.2.lwm.toNat ≤ e.2.sample.toNat then e.2.sample else e.2.lwm })) }

/-- R27, R341, R395: a package's domain sample is that of its min tree, told to the other packages when the context spans them; the
domain mark is the least over the packages that contribute, never falls, also not when a context begins to span packages, and
is published at a multiple of 1,024, for which samples that come earlier wait. -/
def Sys2Proof.Statements.DomainMarks : Prop :=
  (∀ (s : State) (a : Nat) (c : Ctx), s.ctxs = [(a, c)] → s.lwmInputs c = [] →
    exec .domainLwmSample s = .next (s.modCtx a (fun x => { x with domSample := none }))) ∧
  (∀ (s : State) (a : Nat) (c : Ctx) (v : W64), s.ctxs = [(a, c)] → Statements.isLeast (s.lwmInputs c) v →
    let s1 := s.modCtx a (fun x => { x with domSample := some v })
    (c.spans = false → exec .domainLwmSample s = .next s1) ∧
    (c.spans = true → exec .domainLwmSample s = .next (s.otherPeers.foldl (fun x p => x.tell p (.sample a v)) s1))) ∧
  (∀ (s : State) (a : Nat) (others : List W64) (c : Ctx), s.ctx? a = some c →
    let all := c.domSample.toList ++ others
    let old := c.spanning.domLwm
    let publishes := fun (w : W64) => exec (.domainLwmPublication a others) s =
      .next (((s.modCtx a (fun x => { x with domLwm := w, spans := true })).noteHeld.wakeUnits).rxeBatch a c.seenLwm)
    (s.ticks % 1024 ≠ 0 → exec (.domainLwmPublication a others) s =
      .next (s.sched_ (1024 * (s.ticks / 1024 + 1)) rankPublish (.domainLwmPublication a others))) ∧
    (s.ticks % 1024 = 0 → all = [] → publishes old) ∧
    (∀ v, s.ticks % 1024 = 0 → Statements.isLeast all v → publishes (if old.toNat ≤ v.toNat then v else old))) ∧
  (∀ (c : Ctx), c.seenLwm.toNat ≤ c.spanning.seenLwm.toNat)

/-- R27, R32, R341, R395, R407, R412: the min tree, the marks and the ebb. -/
def Obligations.MarksAreSampledAndPublished : Prop :=
  Statements.MinTreeSamples ∧ Statements.MarksArePublished ∧ Statements.DomainMarks ∧
    (∀ s : State, exec .ebbStart s = .next { s with ebb := true } ∧ exec .ebbEnd s = .next { s with ebb := false })

/-- R34, R303, R306, R307, R309, R362: an uncorrectable error strikes the storage at its site and is counted; a scrubber counts the
errors that it corrects and strikes those that it cannot; a site outside the package names no storage. -/
def Sys2Proof.Statements.StorageErrorsStrike : Prop :=
  ∀ (s : State) (site : ErrSite),
    (s.siteExists site = false → exec (.uncorrectableError site) s = .next s ∧ ∀ b, exec (.scrub site b) s = .next s) ∧
    (s.siteExists site = true →
      let word := (s.errorCount site).1
      let counted := fun (x : State) (w : Nat) => { x with pkg := x.pkg.setD w (x.pkg.getD w 0 + 1) 0 }
      (∀ a, (s.errorCount site).2 = some a → exec (.uncorrectableError site) s = .next ((s.corrupt site).count a word 1).retryDet) ∧
      ((s.errorCount site).2 = none → exec (.uncorrectableError site) s = .next (counted (s.corrupt site) word).retryDet) ∧
      exec (.scrub site false) s = .next (counted (s.corrupt site) word).retryDet ∧
      (word = 3 ∨ word = 5 → exec (.scrub site true) s = .next (counted s (word - 1))) ∧
      (word ≠ 3 → word ≠ 5 → exec (.scrub site true) s = .next s)) ∧
    (∀ core cell, s.corrupt (.localCell core cell) = s.strike (localKey core (8 * cell) / 8)) ∧
    (∀ g, s.corrupt (.dramGroup g) = (((s.strike (4 * g)).strike (4 * g + 1)).strike (4 * g + 2)).strike (4 * g + 3)) ∧
    (∀ k, (s.strike k).mem.poisoned k = true) ∧
    (∀ n w, codeKey n (4 * w) ∈ (s.corrupt (.codeWord n w)).mem.badCode) ∧
    (∀ g, g ∈ (s.corrupt (.eagerGroup g)).rxe.badGroups) ∧
    (∀ row slot r n, let e := (slot * 32 + r) * 128 + n
      let w := (s.corrupt (.accEntry row slot r n)).row row
      e ∈ w.badAcc ∧ w.acc.getD e 0 = (if (s.row row).types.getD (e / 4096) 0 = 1 then 0x7FC00000
        else if (s.row row).types.getD (e / 4096) 0 = 2 then 0x7FF8000000000000 else 0))

/-- R4, R362, R450, R471, R473: a snapshot rewrites the page of each context that has not ended, with the values at the start of the
tick: cell 0 takes the sequence number and is full. The power measured for it is at most 2,400,000 mW, and the energy, in mJ, rises by
what that power makes in 1,024 ticks of 4/7 ns, the rest being kept. -/
def Sys2Proof.Statements.SnapshotsRewriteThePages : Prop :=
  (∀ (s : State), s.ctxs = [] → exec .counterSnapshot s = .next ((s.otherPeers.foldl State.noteCutOff s).measure).2) ∧
  (∀ (s : State), s.measure.1 ≤ 2400000 ∧ ∃ p, p ≤ 2400000000 ∧ s.measure.1 = p / 1000 ∧
    s.measure.2.host.energy = s.host.energy + BitVec.ofNat 64 ((s.host.energyPart + 4096 * p) / (7 * 10 ^ 12)) ∧
    s.measure.2.host.energyPart = (s.host.energyPart + 4096 * p) % (7 * 10 ^ 12)) ∧
  (∀ (s : State) (a : Nat) (c : Ctx), s.ctxs = [(a, c)] → c.asid = a → c.mgmt = false → c.phase = .live →
    ∃ s', exec .counterSnapshot s = .next s' ∧ s'.ctx? a = some { c with snapSeq := c.snapSeq + 1 } ∧
      (c.cnt % 8 = 0 →
        s'.mem.word c.cnt = c.snapSeq + 1 ∧ s'.mem.isFull (c.cnt / 8) = true ∧
        s'.mem.word (c.cnt + 8) = BitVec.ofNat 64 s.ticks ∧
        (∀ i, 2 ≤ i → i ≤ 14 → s'.mem.word (c.cnt + 8 * i) = c.counters.getD i 0)))

/-- R34, R303, R306, R307, R309, R362, R450: storage errors, scrubbers and the counter pages. -/
def Obligations.ErrorsAreCountedAndPagesRewritten : Prop :=
  Statements.StorageErrorsStrike ∧ Statements.SnapshotsRewriteThePages

/-! ### Contexts (spec 15, 16) -/

/-- R351, R352, R387: what the end of a context with a recorded fault leaves. No thread, copy, waiting access, deterministic
update, posted receive, header or landing of it stays; its kernels are retired; its queues read EN = 0; it holds no row. -/
def Sys2Proof.Statements.EndedContextsLeaveNothing : Prop :=
  ∀ (s : State) (a : Nat) (c : Ctx), s.ctx? a = some c → c.phase ≠ .ended → c.phase ≠ .destroying → c.faults ≠ [] →
    let s' := s.endContext a
    exec (.contextFatalEnd a) s = .next s' ∧
    (∃ c', s'.ctx? a = some c' ∧ c'.phase = .ended ∧ c'.rows = [] ∧ c'.clusters = [] ∧ c'.groups = [] ∧ c'.hadFault = true) ∧
    s'.threadsOf a = [] ∧ (∀ e ∈ s'.copies, e.asid ≠ a) ∧ (∀ e ∈ s'.waits, e.asid ≠ a) ∧ (∀ e ∈ s'.det, e.asid ≠ a) ∧
    (∀ e ∈ s'.rxe.posted, e.asid ≠ a) ∧ (∀ e ∈ s'.rxe.unexp, e.asid ≠ a) ∧ (∀ e ∈ s'.rxe.landings, e.hdr.asid ≠ a) ∧
    (∀ e ∈ s'.kernels, e.2.asid = a → e.2.phase = .retired) ∧
    (∀ q, (s.queue q).ctx = a → (s'.queue q).en = false)

/-- R351, R353: without a fault to record, or once ended, nothing ends; another package's notice is such a fault, with its cause,
value and origin. -/
def Sys2Proof.Statements.ContextsEndOnce : Prop :=
  ∀ (s : State) (a : Nat) (c : Ctx), s.ctx? a = some c →
    (c.phase = .ended ∨ c.phase = .destroying ∨ c.faults = [] → exec (.contextFatalEnd a) s = .next s) ∧
    (∀ k : Cause, ∀ (origin : Nat) (v : W64), exec (.contextEndNotice a k.code origin v) s =
      .next ((s.modCtx a (fun c => { c with faults := c.faults ++
        [{ tick := s.ticks, cause := k, tid := none, kernel := 0, epc := 0, val := v, tcause := 0, origin := origin, notice := true }] })).endContext a))

/-- R102, R181, R354, R355: a context that is pre-empted stops its threads, each at an instruction boundary with no open region and
its wait withdrawn, or asked back where it waits on another package; once threads, their writes and stores, copies, landings,
migrations, row arrays and creation are at rest it is saved within its bound, and else looks again at the next tick. -/
def Sys2Proof.Statements.ContextsArePreempted : Prop :=
  (∀ (s : State) (a : Nat) (c : Ctx), s.ctx? a = some c →
    (c.phase ≠ .live → c.phase ≠ .stopping → exec (.preemption a) s = .next s) ∧
    (c.phase = .live ∨ c.phase = .stopping →
      let s1 := if c.phase = .live then s.markStop c else s
      let c1 := (s1.ctx? a).getD c
      let s2 := ((((s1.threadsOf a).map (·.id)).foldl State.stopThread s1).hurry a).hurryEngines c1
      let d := s2.draw (s2.saveTicks c)
      (s2.readyToSave c = true → exec (.preemption a) s = .next (d.2.sched_ (max (s.ticks + 1)
        (min (s.ticks + 1 + d.1) (c1.stopBy + 600 + s2.saveTicks c))) rankLast (.saveComplete a))) ∧
      (s2.readyToSave c = false → exec (.preemption a) s = .next (s2.after_ 1 rankLast (.preemption a))))) ∧
  (∀ (s : State) (t : Tid) (th : Thread), s.thread? t = some th → th.gang = .none →
    (th.regions ≠ [] → s.stopThread t = s) ∧
    (th.regions = [] → th.run = .ready → s.stopThread t = s.putThread { th with run := .stopped, pairs := [] }) ∧
    (∀ w s1, th.regions = [] → th.run = .parked w → s.withdrawWait th = some s1 →
      s.stopThread t = s1.modThread t (fun u => { u with run := .stopped })) ∧
    (∀ w, th.regions = [] → th.run = .parked w → s.withdrawWait th = none → s.stopThread t = s.askBack th)) ∧
  (∀ (s : State) (c : Ctx), s.readyToSave c = true →
    ∀ th ∈ s.threadsOf c.asid, th.run = .stopped ∧ th.sbuf = [] ∧ th.pend = [])

/-- R354, R356: the save writes the save area, keeps the threads of the context, takes them off the package and gives its rows
up. -/
def Sys2Proof.Statements.ContextsAreSaved : Prop :=
  ∀ (s : State) (a : Nat) (c : Ctx), s.ctx? a = some c →
    (c.phase ≠ .stopping → exec (.saveComplete a) s = .next s) ∧
    (c.phase = .stopping → ∃ s' c' v, exec (.saveComplete a) s = .next s' ∧ s'.ctx? a = some c' ∧ c'.phase = .saved ∧
      c'.rows = c.rows ∧ c'.saved = some v ∧ v.threads = s.threadsOf a ∧ s'.threadsOf a = [] ∧
      s'.mem = s.mem.writeN c.save (s.saveImage c) ∧ s'.swm = s.swm ∧ s'.ticks = s.ticks)

/-- R336, R360: a saved context whose rows are all free, and which no launch of higher priority goes before, comes back: its threads stand again in their slots, and it runs after the
restore's time; poison in the header, the kernel table, the code image or a thread record ends it instead. -/
def Sys2Proof.Statements.ContextsAreRestored : Prop :=
  ∀ (s : State) (a : Nat) (c : Ctx), s.ctx? a = some c →
    (c.saved = none ∨ c.phase ≠ .saved ∨ c.rows.all s.rowFree = false ∨ s.outranked c = true →
      exec (.restore a) s = .next s) ∧
    (∀ v, c.saved = some v → c.phase = .saved → c.rows.all s.rowFree = true → s.outranked c = false →
      (s.mem.firstPoison c.save (64 + (v.parts.take 3).sum) = none →
        v.threads.Pairwise (fun x y => tkey x.id ≠ tkey y.id) →
        ∃ s' c', exec (.restore a) s = .next s' ∧ s'.ctx? a = some c' ∧ c'.phase = .restoring ∧ c'.rows = c.rows ∧
          ∀ th ∈ v.threads, s'.thread? th.id = some th) ∧
      (∀ p, s.mem.firstPoison c.save (64 + (v.parts.take 3).sum) = some p →
        ∃ s' c', exec (.restore a) s = .next s' ∧ s'.ctx? a = some c' ∧ c'.rows = [] ∧ s'.threads = s.threads ∧
          c'.faults = c.faults ++ [{ tick := s.ticks, cause := .poison, tid := none, kernel := 0, epc := 0, val := at_ p 0,
                                     tcause := 0, origin := s.ni.peer, notice := false }])) ∧
    (c.phase ≠ .restoring → exec (.restoreReady a) s = .next s) ∧
    (c.phase = .restoring → (∀ r ∈ c.rows, (s.row r).queue = []) →
      exec (.restoreReady a) s = .next ((((s.threadsOf a).foldl (fun st th =>
        st.putThread { th with run := .ready, gapUntil := max th.gapUntil s.ticks,
                               cancel := th.cancel || ((s.kernels.find? th.kernel).map (·.cancel)).getD false })
        (s.modCtx a (fun c => { c with phase := .live }))).startNext a).retryQueues.retryDispatch))

/-- R335, R336, R351 to R356, R360, R387: contexts end, are pre-empted, saved and restored. -/
def Obligations.ContextsEndAndReturn : Prop :=
  Statements.EndedContextsLeaveNothing ∧ Statements.ContextsEndOnce ∧ Statements.ContextsArePreempted ∧
    Statements.ContextsAreSaved ∧ Statements.ContextsAreRestored

/-! ### Queue packets (spec 14, 15, 22) -/

/-- The parsed packet ws of a type stands at the head of queue q, whose context c is live. -/
def Sys2Proof.Statements.atHead (s : State) (q ty : Nat) (c : Ctx) (ws : List W64) : Prop :=
  (s.queue q).packet = some ws ∧ s.ctx? (s.queue q).ctx = some c ∧ c.phase = .live ∧ packetType (wordAt ws 0) = ty

/-- R326 to R329: at a start the queue of highest PRIO that can start has its head packet read and parsed; an unknown type is
FORMAT. -/
def Sys2Proof.Statements.PacketsStart : Prop :=
  ∀ (s : State),
    (s.chooseQueue = none → exec .queuePacketStart s = .next s) ∧
    (∀ q, s.chooseQueue = some q →
      (∃ e ∈ s.queues, e.1 = q ∧ s.startable e.2 = true ∧ ∀ d ∈ s.queues, s.startable d.2 = true → d.2.prio ≤ e.2.prio) ∧
      let r := s.queue q
      let n := slotsOf (wordAt (s.slotWords r 0) 0)
      let ws := (List.range n).flatMap (s.slotWords r)
      let s1 := { s.putQueue q { r with packet := some ws, slots := n, state := 1, mark := s.sched.ids, begun := false, cond := 0,
                                        req := none, acc := none } with qp := { s.qp with last := q, lastTick := s.ticks } }
      (∀ ty ev, (ty, ev) ∈ [(1, Instr.launch q), (2, .fencePacket q), (3, .signal q), (4, .pin q), (5, .unpin q), (6, .viewdef q),
          (7, .codeload q), (8, .detlvl q), (9, .slotplan q)] → packetType (wordAt ws 0) = ty →
        exec .queuePacketStart s = .next (s1.sched_ s.ticks rankLast ev)) ∧
      (packetType (wordAt ws 0) = 0 ∨ 9 < packetType (wordAt ws 0) →
        exec .queuePacketStart s = .next (s1.rejectPacket q 0x01)))

/-- R299, R328: a rejected packet halts its queue with its code and one more error, HEAD unmoved; a completed packet moves HEAD
past its slots. -/
def Sys2Proof.Statements.PacketsEnd : Prop :=
  ∀ (s : State) (q code : Nat),
    let r := s.queue q
    let x := (s.rejectPacket q code).queue q
    let y := (s.completePacket q).queue q
    x = { r with packet := none, begun := false, req := none, acc := none, state := 3, code := BitVec.ofNat 8 code, errs := r.errs + 1,
                 recSeq := r.recSeq + 1 } ∧
    y.packet = none ∧ y.head = (r.head + r.slots) % 2 ^ r.log ∧ y.tail = r.tail ∧ y.en = r.en ∧ y.errs = r.errs

/-- R328, R330: a LAUNCH that fails a check is rejected with the code; else its kernel waits for dispatch, tried at once. -/
def Sys2Proof.Statements.LaunchesAreAccepted : Prop :=
  ∀ (s : State) (q : Nat) (c : Ctx) (ws : List W64), Statements.atHead s q 1 c ws →
    let k := launchKernel q c.asid c.level ws (s.launchList ws)
    (∀ e, s.launchFault c ws k = some e → exec (.launch q) s = .next (s.rejectPacket q e)) ∧
    (s.launchFault c ws k = none → exec (.launch q) s =
      .next (({ s.fresh.2 with kernels := s.kernels.put s.sched.ids k }.packetWaits q).sched_ s.ticks rankLast
        (.dispatch s.sched.ids)))

/-- R38, R58, R60, R328, R333, R334, R336, R404: a waiting launch whose context is live and whose plan is free is dispatched when all its
threads fit: its rows and clusters are taken, its .local image comes into each core of its placement (log 82), and at DET2 its tick is a
multiple of 65,536. One whose EXCH is not that of the cores its context holds by then is rejected (log 117); a saved context of its
priority or a higher one that its rows would keep from its restore is restored first. -/
def Sys2Proof.Statements.LaunchesAreDispatched : Prop :=
  ∀ (s : State) (n : Nat) (k : Kernel) (c : Ctx), s.kernels.find? n = some k → s.ctx? k.asid = some c →
    (k.phase ≠ .waiting ∨ c.phase ≠ .live ∨ s.planHeld n k = true → exec (.dispatch n) s = .next s) ∧
    (k.phase = .waiting → c.phase = .live → s.planHeld n k = false →
      let other := c.rows ≠ [] ∧ c.exch ≠ k.exch
      (other → exec (.dispatch n) s = .next (({ s with kernels := s.kernels.erase n }.rejectPacket k.queue 0x05).retryQueues)) ∧
      (¬other → s.placeNow c k = none → exec (.dispatch n) s = .next (s.preemptFor c k)) ∧
      (∀ l, ¬other → s.placeNow c k = some l → s.restoresFirst (s.queue k.queue).prio (l.map (·.1 / 4)) ≠ [] →
        exec (.dispatch n) s = .next ((s.restoresFirst (s.queue k.queue).prio (l.map (·.1 / 4))).foldl
          (fun st a => st.sched_ st.ticks rankEngine (.restore a)) s)) ∧
      (∀ l, ¬other → s.placeNow c k = some l → s.restoresFirst (s.queue k.queue).prio (l.map (·.1 / 4)) = [] →
        let s1 := ((l.map (·.1)).eraseDups).foldl (fun st core => st.loadLocal n core) (s.takeCores k.asid k.exch (l.map (·.1)))
        ∃ t, s.ticks ≤ t ∧ (k.detlvl ≠ 2 → t = s.ticks) ∧ (k.detlvl = 2 → t % 65536 = 0 ∧ t < s.ticks + 65536) ∧
          exec (.dispatch n) s = .next (({ s1 with kernels := s1.kernels.put n { k with
            phase := .dispatched, dispatchTick := t,
            placed := l.map (fun (p : Nat × Occ) => (p.1, p.2.slot, p.2.xbase, p.2.vbase, p.2.wheel)) } }.modQueue k.queue
              (fun q => { q with begun := true })).sched_ t rankLast (.threadCreation n))))

/-- R45, R334: 64 threads are created in a tick, in order of index; each starts at ENTRY with x4, x5 and x6 holding the argument
pointer, its index and the count, every other register zero, VTIME the start value. -/
def Sys2Proof.Statements.ThreadsAreCreated : Prop :=
  (∀ (s : State) (n : Nat) (k : Kernel), s.kernels.find? n = some k →
    (k.phase ≠ .dispatched → exec (.threadCreation n) s = .next s) ∧
    (k.phase = .dispatched →
      let batch := (k.placed.drop k.created).take 64
      let made := k.created + batch.length
      let s1 := ((batch.zip (List.range batch.length)).map (fun p => launchThread n k (k.created + p.2) p.1 s.ticks)).foldl
        State.putThread { s with kernels := s.kernels.put n { k with created := made } }
      (made < k.count → batch ≠ [] → exec (.threadCreation n) s = .next (s1.after_ 1 rankLast (.threadCreation n))) ∧
      (k.count ≤ made → (s.queue k.queue).begun = true → packetType (wordAt (s.queue k.queue).words 0) = 1 →
        exec (.threadCreation n) s = .next ((s1.completePacket k.queue).tryRetire n)) ∧
      (k.count ≤ made → (s.queue k.queue).begun = false → exec (.threadCreation n) s = .next (s1.tryRetire n)))) ∧
  (∀ (n i : Nat) (k : Kernel) (p : Nat × Nat × Nat × Nat × W64) (now : Nat),
    let th := launchThread n k i p now
    th.id = { core := p.1, slot := p.2.1 } ∧ th.asid = k.asid ∧ th.kernel = n ∧ th.pc = k.entry ∧ th.run = .ready ∧
      th.gapUntil = now + 1 ∧ th.regions = [] ∧ th.sbuf = [] ∧ th.gang = .none ∧ th.csr.vtime = k.vtstart ∧ th.csr.tvec = 0 ∧
      th.csr.detlvl = k.detlvl ∧ th.wheel = p.2.2.2.2 ∧ th.cap = k.cap ∧ th.cancel = k.cancel ∧
      (∀ r : XReg, th.getX r = if r = 4 then k.args else if r = 5 then BitVec.ofNat 64 i
        else if r = 6 then BitVec.ofNat 64 k.count else 0) ∧
      (∀ r : VReg, th.getV r = 0) ∧ (∀ r : MReg, r ≠ 0 → th.getM r = 0) ∧ (∀ r : MReg, th.getF r = 0))

/-- R329: the comparisons of a FENCE. -/
def Sys2Proof.Statements.FenceComparisons : Prop :=
  ∀ v w : W64, fenceHolds 0 v w = decide (v = w) ∧ fenceHolds 1 v w = decide (v ≠ w) ∧
    fenceHolds 2 v w = decide (w.toNat ≤ v.toNat) ∧ fenceHolds 3 v w = decide (v.toNat < w.toNat) ∧
    fenceHolds 4 v w = decide (w.toInt ≤ v.toInt) ∧ fenceHolds 5 v w = decide (v.toInt < w.toInt) ∧
    fenceHolds 6 v w = decide (v &&& w ≠ 0)

/-- R328, R331: a FENCE reads its conditions in order; when all of one pass have held it completes, and else its next pass begins
64 ticks after the last one began. -/
def Sys2Proof.Statements.FencePacketsWait : Prop :=
  ∀ (s : State) (q : Nat) (c : Ctx) (ws : List W64), Statements.atHead s q 2 c ws →
    (∀ e, s.fenceFault c ws = some e → exec (.fencePacket q) s = .next (s.rejectPacket q e)) ∧
    (s.fenceFault c ws = none → exec (.fencePacket q) s = .next (s.fenceBegin q)) ∧
    ((s.queue q).cond < condCount ws →
      let a := (condAddr ws (s.queue q).cond).toNat
      (s.mem.poisoned (a / 8) = false → exec (.fencePacketPass q) s = .next (s.fenceGot q (some (s.mem.word a)))) ∧
      (s.mem.poisoned (a / 8) = true →
        exec (.fencePacketPass q) s = .next ((s.count (s.queue q).ctx 8 1).fenceGot q (some (s.mem.word a))))) ∧
    (condCount ws ≤ (s.queue q).cond → exec (.fencePacketPass q) s = .next (s.fenceBegin q)) ∧
    (∀ v, (s.queue q).cond + 1 = condCount ws →
      let n := (s.queue q).cond
      let s1 := s.modQueue q (fun r => { r with
        cond := n + 1, holds := r.holds && fenceHolds (condCmp ws n) v (condVal ws n), req := none,
        acc := none })
      ((s.queue q).holds = true → fenceHolds (condCmp ws n) v (condVal ws n) = true →
        s.fenceGot q (some v) = s1.completePacket q) ∧
      ((s.queue q).holds = false ∨ fenceHolds (condCmp ws n) v (condVal ws n) = false →
        s.fenceGot q (some v) = s1.sched_ ((s.queue q).passAt + 64) rankLand (.fencePacketPass q)))

/-- R328, R331, R458: a SIGNAL waits for the earlier kernels of its queue; then its counter is written, added to or filled, at host
memory or at its cell, the interrupt of the function that owns the queue follows, and it completes. -/
def Sys2Proof.Statements.SignalsAreWritten : Prop :=
  ∀ (s : State) (q : Nat) (c : Ctx) (ws : List W64), Statements.atHead s q 3 c ws → (s.queue q).begun = false →
    (∀ e, s.signalFault c ws = some e → exec (.signal q) s = .next (s.rejectPacket q e)) ∧
    (s.signalFault c ws = none →
      (s.earlierKernels q = true → exec (.signal q) s = .next (s.packetWaits q)) ∧
      (s.earlierKernels q = false → (∀ t ∈ s.sched.timers, t.2.2 ≠ .signalWrite q) → .signalWrite q ∉ s.sched.agenda →
        exec (.signal q) s = .next (((s.packetWaits q).modQueue q (fun x => { x with acc := some s.ticks })).later 0 rankLand
          (.signalWrite q)))) ∧
    (s.signalAllowed c ws = false → exec (.signalWrite q) s = .next (s.rejectPacket q 0x02)) ∧
    (s.signalAllowed c ws = true →
      let a := signalAddr ws
      (signalHost ws = true → exec (.signalWrite q) s = .next ({ s with host := { s.host with
        mem := hostWrite s.host.mem a.toNat (leBytes 8 (wordAt ws 2).toNat) } }.signalDone q)) ∧
      (signalHost ws = false → bit a 63 = true → exec (.signalWrite q) s = .next (s.queueAccess q a (signalCell ws))) ∧
      (signalHost ws = false → bit a 63 = false → exec (.signalWrite q) s =
        .next ((s.performAt ((List.range 8).map (fun i => .byte (a.toNat + i))) (signalCell ws) false).2.signalDone q))) ∧
    (signalIrq ws = false → s.signalDone q = s.completePacket q) ∧
    (∀ vf, signalIrq ws = true → s.queueOwner q = some vf →
      s.signalDone q = (s.interrupt (1 + vf) (fld (wordAt ws 3) 2 11)).completePacket q)

/-- R299, R326 to R331, R333, R334: packets start, wait, are rejected and complete. -/
def Obligations.QueuePacketsRun : Prop :=
  Statements.PacketsStart ∧ Statements.PacketsEnd ∧ Statements.LaunchesAreAccepted ∧ Statements.LaunchesAreDispatched ∧
    Statements.ThreadsAreCreated ∧ Statements.FenceComparisons ∧ Statements.FencePacketsWait ∧ Statements.SignalsAreWritten

/-- R300, R317, R325, R477: a PIN that passes its checks writes the leaves of its pages at once, unless a frame is in quarantine or
marked by an UNPIN that waits: then it waits. Wrong fields are FORMAT or RANGE; frames outside the partition, and tables without room, XLATE. -/
def Sys2Proof.Statements.PinsAreMade : Prop :=
  ∀ (s : State) (q : Nat) (c : Ctx) (ws : List W64), Statements.atHead s q 4 c ws →
    let rejects := fun (e : Nat) => exec (.pin q) s = .next (s.rejectPacket q e)
    let page := if pageBig ws then 2 ^ 30 else 2 ^ 21
    let bytes := pageCount ws * page
    let badFields := layoutBad ws = true ∨ (bit (wordAt ws 3) 19 = true ∧ bit c.features 8 = false)
    let badRange := pagesRange ws = true ∨ pinFrame ws % page ≠ 0
    (badFields → rejects 0x01) ∧ (¬badFields → badRange → rejects 0x02) ∧
    (¬badFields → ¬badRange →
      (s.partOf c.vf = none → rejects 0x09) ∧
      (∀ r, s.partOf c.vf = some r → partHasDram r (pinFrame ws) bytes = false → rejects 0x09) ∧
      (∀ r, s.partOf c.vf = some r → partHasDram r (pinFrame ws) bytes = true →
        (pinAll s.mem c ws = none → rejects 0x09) ∧
        (∀ m, pinAll s.mem c ws = some m →
          let meets := fun (a n : Nat) => pinFrame ws < a + n ∧ a < pinFrame ws + bytes
          let held := (∃ f ∈ s.quarantine, meets f.1 f.2.1) ∨
            ∃ e ∈ s.queues, ∃ x ∈ e.2.unpins, meets (fld x.2.1 21 18 * 2 ^ 21) (if x.2.2 then 2 ^ 30 else 2 ^ 21)
          (held → exec (.pin q) s = .next (s.packetWaits q)) ∧
          (¬held → exec (.pin q) s = .next ((s.setMem m).completePacket q)))))

/-- R325, R328: an UNPIN of pages that are not all pinned is XLATE; else it marks every leaf invalid first, and with room in the
quarantine for all its frames it puts them there under the tick of its completion, returns empty tables and completes; without
room it waits (of more than 4,096 pages, in runs: log 67). -/
def Sys2Proof.Statements.UnpinsAreMade : Prop :=
  (∀ (s : State) (q : Nat) (c : Ctx) (ws : List W64), Statements.atHead s q 5 c ws → (s.queue q).cond = 0 →
    let pages := (List.range (pageCount ws)).map (fun i => pageVa ws + i * pageBytes (pageBig ws))
    (layoutBad ws = true → exec (.unpin q) s = .next (s.rejectPacket q 0x01)) ∧
    (layoutBad ws = false → pagesRange ws = true → exec (.unpin q) s = .next (s.rejectPacket q 0x02)) ∧
    (layoutBad ws = false → pagesRange ws = false →
      ((s.queue q).begun = false → (∃ v ∈ pages, leafOf s.mem c v (pageBig ws) = none) →
        exec (.unpin q) s = .next (s.rejectPacket q 0x09)) ∧
      ((s.queue q).begun = true ∨ (∀ v ∈ pages, leafOf s.mem c v (pageBig ws) ≠ none) → pageCount ws ≤ 4096 →
        let s1 := if (s.queue q).unpins = [] then pages.foldl (fun st v => st.markPage q c (pageBig ws) v) s else s
        let s2 := s1.quarantineMarked q
        let room := s1.quarantine.length + (s1.queue q).unpins.length ≤ 4096
        (room → exec (.unpin q) s =
          .next ((s2.setMem (pages.foldl (fun m v => returnTables m c v) s2.mem)).completePacket q)) ∧
        (¬room → exec (.unpin q) s = .next (s1.modQueue q (fun x => { x with begun := true, state := 2 })))) ∧
      (4096 < pageCount ws → (s.queue q).unpins = [] →
        (s.queue q).begun = true ∨ (∀ v ∈ pages, leafOf s.mem c v (pageBig ws) ≠ none) →
        let run := pages.take 4096
        let s1 := run.foldl (fun st v => st.markPage q c (pageBig ws) v) s
        s1.quarantine.length + (s1.queue q).unpins.length ≤ 4096 → exec (.unpin q) s =
          .next (((s1.quarantineMarked q).modQueue q (fun x => { x with begun := true, state := 2, cond := x.cond + run.length })).sched_
            s.ticks rankLast (.unpin q))))) ∧
  (∀ (s : State) (q : Nat) (c : Ctx) (va : Nat) (big : Bool) (a : Nat) (e : W64), leafOf s.mem c va big = some (a, e) →
    let x := s.markPage q c big va
    x.mem = s.mem.setWord a (e &&& ~~~1) ∧ (x.queue q).unpins = (s.queue q).unpins ++ [(va, e, big)] ∧
      x.quarantine = s.quarantine) ∧
  (∀ (s : State) (q : Nat),
    let x := s.quarantineMarked q
    x.mem = s.mem ∧ (x.queue q).unpins = [] ∧ x.quarantine = s.quarantine ++ (s.queue q).unpins.map (fun p =>
      (fld p.2.1 21 18 * 2 ^ 21, if p.2.2 then 2 ^ 30 else 2 ^ 21, s.ticks)))

/-- R311, R328: a VIEWDEF whose fields are well formed and whose region satisfies R311 registers it; VALID = 0 removes one. -/
def Sys2Proof.Statements.ViewsAreDefined : Prop :=
  ∀ (s : State) (q : Nat) (c : Ctx) (ws : List W64), Statements.atHead s q 6 c ws →
    let w0 := wordAt ws 1
    let w1 := wordAt ws 2
    let n := fld (wordAt ws 3) 0 12
    let bad := layoutBad ws = true ∨ bit c.features 9 = false ∨ fld w0 8 3 = 7 ∨ fld w0 11 3 = 7 ∨
      (bit w0 0 = false ∧ (w0 ≠ 0 ∨ w1 ≠ 0))
    (bad → exec (.viewdef q) s = .next (s.rejectPacket q 0x01)) ∧
    (¬bad → 16 < fld w0 3 5 → exec (.viewdef q) s = .next (s.rejectPacket q 0x02)) ∧
    (¬bad → fld w0 3 5 ≤ 16 →
      (bit w0 0 = true → viewOk c (viewRec (w0, w1)) = false → exec (.viewdef q) s = .next (s.rejectPacket q 0x08)) ∧
      (bit w0 0 = true → viewOk c (viewRec (w0, w1)) = true → exec (.viewdef q) s =
        .next ((s.modCtx c.asid (fun c => { c with views := c.views.put n (w0, w1) })).completePacket q)) ∧
      (bit w0 0 = false → exec (.viewdef q) s =
        .next ((s.modCtx c.asid (fun c => { c with views := c.views.erase n })).completePacket q)))

/-- R300, R307, R328: a CODELOAD copies its bytes from DRAM into the code store of each cluster that holds the context and makes
the range loaded; wrong fields are FORMAT or RANGE, a range past the store or of another context of the partition CODE. -/
def Sys2Proof.Statements.CodeIsLoaded : Prop :=
  (∀ (s : State) (q : Nat) (c : Ctx) (ws : List W64), Statements.atHead s q 7 c ws →
    let src := (wordAt ws 1).toNat
    let dst := fld (wordAt ws 2) 2 16 * 4
    let len := fld (wordAt ws 2) 18 19
    let badRange := 2 ^ 39 ≤ src ∨ src % 8 ≠ 0 ∨ len % 4 ≠ 0 ∨ len < 4 ∨ 0x40000 < len ∨ c.segAllows src len true false = false
    let taken := 0x40000 < dst + len ∨ s.codeTaken c dst len = true
    (layoutBad ws = true → exec (.codeload q) s = .next (s.rejectPacket q 0x01)) ∧
    (layoutBad ws = false → badRange → exec (.codeload q) s = .next (s.rejectPacket q 0x02)) ∧
    (layoutBad ws = false → ¬badRange → taken → exec (.codeload q) s = .next (s.rejectPacket q 0x0A)) ∧
    (layoutBad ws = false → ¬badRange → ¬taken →
      exec (.codeload q) s = .next ((s.loadCode c dst (s.dramBytes src len)).completePacket q))) ∧
  (∀ (s : State) (c : Ctx) (dst : Nat) (b : List Byte), s.ctx? c.asid = some c → ∃ c', (s.loadCode c dst b).ctx? c.asid = some c' ∧
    c' = { c with code := c.code ++ [(dst, b.length)], image := c'.image } ∧
    (∀ i v, b[i]? = some v → c'.image.getD (dst + i) 0 = v) ∧
    (∀ a, a < dst ∨ dst + b.length ≤ a → c'.image.getD a 0 = c.image.getD a 0) ∧
    (∀ n ∈ c.clusters, ∀ i v, b[i]? = some v → dst + b.length ≤ 2 ^ 18 →
      (s.loadCode c dst b).mem.read (codeKey n (dst + i)) = v))

/-- R332, R404, R461: DETLVL waits for the earlier kernels of its context, SLOTPLAN for the live kernels that use its slot; then
the level, or the plan, is in force. Levels and plans without their feature are FORMAT. -/
def Sys2Proof.Statements.LevelsAndPlansAreSet : Prop :=
  (∀ (s : State) (q : Nat) (c : Ctx) (ws : List W64), Statements.atHead s q 8 c ws →
    let l := fld (wordAt ws 1) 0 2
    let bad := layoutBad ws = true ∨ l = 3 ∨ (l = 1 ∧ bit c.features 6 = false) ∨ (l = 2 ∧ bit c.features 7 = false)
    let waits := ∃ e ∈ s.kernels, e.2.asid = c.asid ∧ e.1 < (s.queue q).mark ∧ e.2.phase ≠ .retired
    (bad → exec (.detlvl q) s = .next (s.rejectPacket q 0x01)) ∧
    (¬bad → waits → exec (.detlvl q) s = .next (s.packetWaits q)) ∧
    (¬bad → ¬waits → exec (.detlvl q) s =
      .next ((s.modCtx c.asid (fun c => { c with level := BitVec.ofNat 2 l })).completePacket q))) ∧
  (∀ (s : State) (q : Nat) (c : Ctx) (ws : List W64), Statements.atHead s q 9 c ws →
    let src := (wordAt ws 1).toNat
    let n := fld (wordAt ws 2) 0 4
    let len := fld (wordAt ws 2) 8 16
    let es := wordsOf (8 * len) (s.dramBytes src (64 * len))
    let bad := layoutBad ws = true ∨ bit c.features 7 = false
    let waits := ∃ e ∈ s.kernels, e.2.detlvl = 2 ∧ e.2.planen = true ∧ e.2.plan = n ∧ e.2.phase = .dispatched
    (bad → exec (.slotplan q) s = .next (s.rejectPacket q 0x01)) ∧
    (¬bad → 2 ^ 39 ≤ src ∨ src % 64 ≠ 0 → exec (.slotplan q) s = .next (s.rejectPacket q 0x02)) ∧
    (¬bad → src < 2 ^ 39 → src % 64 = 0 →
      (∀ e, planFault es = some e → exec (.slotplan q) s = .next (s.rejectPacket q e)) ∧
      (planFault es = none → waits → exec (.slotplan q) s = .next (s.packetWaits q)) ∧
      (planFault es = none → ¬waits → exec (.slotplan q) s =
        .next ({ s with qp := { s.qp with plans := s.qp.plans.put n es } }.completePacket q))))

/-- R300, R307, R311, R317, R325, R328, R332, R404, R461, R477: the packets that set up translation, views, code, levels and
plans. -/
def Obligations.QueuePacketsConfigure : Prop :=
  Statements.PinsAreMade ∧ Statements.UnpinsAreMade ∧ Statements.ViewsAreDefined ∧ Statements.CodeIsLoaded ∧
    Statements.LevelsAndPlansAreSet

/-- R326, R328, R337, R338, R457, R460, R472, R474: the queue registers. TAIL, QCTL, RESUME, SKIP, CANCEL, behind the acceptance of a
LAUNCH and the dispatches of its tick (R338), and the read of QSTAT, for a queue that a function exposes; a write of another queue is
ignored, its QSTAT reads zero, and after a TRIP no queue is enabled. -/
def Obligations.QueueRegistersAreWritten : Prop :=
  ∀ (s : State) (q : Nat) (val : W64),
    let r := s.queue q
    (s.queueVf q = none →
      exec (.qtailWrite q val) s = .next s ∧ exec (.qctlEnable q val) s = .next s ∧ exec (.qctlDisable q) s = .next s ∧
      exec (.qctlResume q) s = .next s ∧ exec (.qctlResumeSkip q) s = .next s ∧ exec (.qcancel q val) s = .next s ∧
      exec (.qstatRead q) s = .next { s with host := { s.host with reads := s.host.reads ++ [(List.replicate 8 0, false)] } }) ∧
    (∀ n, s.queueVf q = some n →
      (exec (.qtailWrite q val) s = .next (s.putQueue q { r with tail := val.toNat % 2 ^ 16 }.settled)) ∧
      (s.host.trip = true → exec (.qctlEnable q val) s = .next s) ∧
      (s.host.trip = false → ∃ s' x, exec (.qctlEnable q val) s = .next s' ∧ s'.queue q = x ∧ x.en = true ∧ x.loc = val.getLsbD 1 ∧
        x.prio = val.toNat / 4 % 4 ∧ x.ctx = (if r.en then r.ctx else val.toNat / 2 ^ 16 % 2 ^ 16) ∧ x.head = r.head ∧
        x.tail = r.tail ∧ (s'.host.vfs.getD n VfRec.reset).used = true) ∧
      (∃ s', exec (.qctlDisable q) s = .next s' ∧ (s'.queue q).en = false ∧ (s'.queue q).head = r.head ∧
        (r.packet ≠ none → r.begun = false → (s'.queue q).packet = none) ∧
        (r.begun = true → (s'.queue q).packet = r.packet)) ∧
      (r.state ≠ 3 → exec (.qctlResume q) s = .next (s.putQueue q r) ∧ exec (.qctlResumeSkip q) s = .next (s.putQueue q r)) ∧
      (r.state = 3 → ∃ s1 s2 x y, exec (.qctlResume q) s = .next s1 ∧ exec (.qctlResumeSkip q) s = .next s2 ∧
        s1.queue q = x ∧ s2.queue q = y ∧ x.state ≠ 3 ∧ y.state ≠ 3 ∧ x.head = r.head ∧ y.head = (r.head + r.slots) % 2 ^ r.log ∧
        x.code = 0 ∧ y.code = 0) ∧
      (exec (.qstatRead q) s = .next (({ s with host := { s.host with reads := s.host.reads ++
        [(leBytes 8 (r.state.toNat + r.code.toNat * 2 ^ 8 + r.errs.toNat * 2 ^ 32), false)] } }).putQueue q { r with errs := 0 })) ∧
      (let s0 := (s.launchDue q).dispatchDue
       let s1 := s0.putQueue q { s0.queue q with cancel := val.setWidth 32 }
       ((∀ e ∈ s0.kernels, e.2.queue = q → e.2.lid ≠ val.toNat % 2 ^ 32) → exec (.qcancel q val) s = .next s1) ∧
       (∀ k key, s0.kernels = [(key, k)] → k.queue = q → k.lid = val.toNat % 2 ^ 32 →
         exec (.qcancel q val) s = .next (s1.cancelKernel key k))))

/-! ### Fabric (spec 23, 24, 25) -/

/-- R450: in the tick of a snapshot, what the record must not show waits for it. -/
def Sys2Proof.Statements.SnapshotsComeFirst : Prop :=
  ∀ (s : State), .counterSnapshot ∈ s.sched.agenda →
    let waits := fun (e : Instr) => exec e s = .next (s.sched_ s.ticks rankLand e)
    waits .alignmentLoss ∧
    ∀ (l i n : Nat) (f : Flit) (lack : BitVec 12),
      waits (.linkLockLoss l) ∧ waits (.linkFail l) ∧
      ((s.link l).failed = false → waits (.replayResend l lack)) ∧
      ((s.link l).failed = false → (s.link l).attaching = false → (s.link l).port ≤ 5 → flitCrcOk f = true →
        flitLseq f = (s.link l).expect → waits (.flitReceive l f)) ∧
      (l ≤ 127 → i ≤ 7 → (s.link l).failed = false → ((s.link l).lane i).state ≠ .train → ((s.link l).lane i).state ≠ .failed →
        waits (.lanePrecorrectionError l i n)) ∧
      ((s.port l).state ≠ .active → waits (.drainMarkerArrival l))

/-- R417, R419, R423, R448: a flit with a good CRC and the expected LSEQ is taken by a pair that carries flits, counted unless IDLE, and
its LACK frees the replay buffer; any other is discarded. A replay starts after the last flit covered; the 17th in 65,536 ticks
fails the link. -/
def Sys2Proof.Statements.FlitsAndReplays : Prop :=
  ∀ (s : State) (l : Nat) (f : Flit) (lack : BitVec 12), .counterSnapshot ∉ s.sched.agenda →
    let k := s.link l
    let carries := k.failed = false ∧ k.attaching = false ∧ k.port ≤ 5
    (¬carries ∨ flitCrcOk f = false ∨ flitLseq f ≠ k.expect → exec (.flitReceive l f) s = .next s) ∧
    (carries → flitCrcOk f = true → flitLseq f = k.expect → ∃ s', exec (.flitReceive l f) s = .next s' ∧
      s'.link l = { k with lack := k.expect, expect := k.expect + 1, flits := if bit f.trailer 5 then k.flits else k.flits + 1,
                           replay := afterLack (flitLack f) k.replay } ∧
      (∀ m, m ≠ l → s'.link m = s.link m) ∧ s'.mem = s.mem ∧ s'.threads = s.threads) ∧
    (k.failed = true → exec (.replayResend l lack) s = .next s) ∧
    (k.failed = false →
      let recent := k.replayTicks.filter (fun t => s.ticks < t + 65536)
      let s1 := s.modLink l (fun k => { k with replay := afterLack lack k.replay, replays := k.replays + 1,
                                               replayTicks := recent ++ [s.ticks] })
      (recent.length < 16 → exec (.replayResend l lack) s = .next s1) ∧
      (16 ≤ recent.length → exec (.replayResend l lack) s = .next (s1.failLink l)))

/-- R420, R421: what follows when lanes are due: one at a time is handed back at the next group of eight slots; with a lane FAILED
beside them the lanes due fail, and the link with them. -/
def Sys2Proof.Statements.LanesThatAreDue : Prop :=
  ∀ (s : State) (l : Nat),
    let k := s.link l
    let due := (List.range 8).filter (fun i => (k.lane i).due && (k.lane i).state == .up)
    let between := ∃ x ∈ k.lanes, x.state = .handback ∨ x.state = .train ∨ x.state = .ret
    s.ticks < nextGroup s.ticks ∧ nextGroup s.ticks ≤ s.ticks + 16 ∧ nextGroup s.ticks % 16 = 0 ∧
    (k.failed = true ∨ between ∨ due = [] → s.nextLane l = s) ∧
    (∀ i r, k.failed = false → ¬between → due = i :: r →
      ((∀ x ∈ k.lanes, x.state ≠ .failed) → s.nextLane l =
        (s.modLink l (fun k => k.setLane i (fun x => { x with state := .handback }))).sched_ (nextGroup s.ticks) rankLand
          (.laneHandback l i)) ∧
      ((∃ x ∈ k.lanes, x.state = .failed) → s.nextLane l =
        (s.modLink l (fun k => due.foldl (fun (k : Link) (j : Nat) => k.setLane j (fun x => { x with state := .failed })) k)).nextNow
          [.linkFail l]))

/-- R420, R421, R449: the errors of a lane are counted outside TRAIN and FAILED, and the first that passes its threshold makes an
UP lane due; a handed-back lane trains, with the link in seven-lane mode; success brings it back at the next group, a second
failure in succession fails it; a window start clears the counts and takes up LTHRESH, before
errors of the same tick are counted (log 100). -/
def Sys2Proof.Statements.LanesRetrain : Prop :=
  ∀ (s : State) (l i n : Nat),
    let k := s.link l
    let x := k.lane i
    (127 < l ∨ 7 < i ∨ k.failed = true ∨ x.state = .train ∨ x.state = .failed →
      exec (.lanePrecorrectionError l i n) s = .next s) ∧
    (l ≤ 127 → i ≤ 7 → k.failed = false → x.state ≠ .train → x.state ≠ .failed → .laneWindowStart ∈ s.sched.agenda →
      exec (.lanePrecorrectionError l i n) s = .next (s.sched_ s.ticks rankLand (.lanePrecorrectionError l i n))) ∧
    (l ≤ 127 → i ≤ 7 → k.failed = false → x.state ≠ .train → x.state ≠ .failed → .laneWindowStart ∉ s.sched.agenda →
      .counterSnapshot ∉ s.sched.agenda →
      exec (.lanePrecorrectionError l i n) s = .next ((s.modLink l (fun k => k.setLane i (fun x => { x with
        window := x.window + n, total := x.total + BitVec.ofNat 64 n,
        due := x.due || (x.thresh ≠ 0 && x.window ≤ x.thresh && x.thresh < x.window + n && x.state == .up) }))).nextLane l)) ∧
    (x.state = .handback → k.failed = false → exec (.laneHandback l i) s =
      .next ((s.modLink l (fun k => { k.setLane i (fun x => { x with state := .train, tries := 0 }) with
        sevenSince := k.sevenSince.orElse (fun _ => some s.ticks), retrains := k.retrains + 1 })).startAttempt l i)) ∧
    (x.state ≠ .handback ∨ k.failed = true → exec (.laneHandback l i) s = .next s) ∧
    (x.state ≠ .train ∨ k.failed = true → ∀ ok, exec (.trainAttemptEnd l i ok) s = .next s) ∧
    (x.state = .train → k.failed = false →
      exec (.trainAttemptEnd l i true) s = .next ((s.modLink l (fun k => k.setLane i (fun x => { x with state := .ret }))).sched_
        (nextGroup s.ticks) rankLand (.laneReturn l i)) ∧
      (x.tries = 0 → exec (.trainAttemptEnd l i false) s =
        .next ((s.modLink l (fun k => k.setLane i (fun x => { x with tries := 1 }))).startAttempt l i)) ∧
      (x.tries ≠ 0 → exec (.trainAttemptEnd l i false) s =
        .next ((s.modLink l (fun k => k.setLane i (fun x => { x with state := .failed, due := false }))).nextLane l))) ∧
    (x.state = .ret → k.failed = false → exec (.laneReturn l i) s =
      .next ((s.modLink l (fun k => (k.setLane i (fun x => { x with state := .up, due := false, window := 0, tries := 0 })).eightLanes
        s.ticks)).nextLane l)) ∧
    (x.state ≠ .ret ∨ k.failed = true → exec (.laneReturn l i) s = .next s) ∧
    (∃ s', exec .laneWindowStart s = .next s' ∧ ∀ m, m < 128 → (s'.link m).lanes = (s.link m).lanes.map (fun y => { y with
      window := 0, thresh := s.fabric.lthresh.toNat }))

/-- R414, R416, R423, R435, R444, R448: a pair whose lock is lost, or whose lanes fail, carries no flits; its replay buffer goes over
another pair of its port, what it may have carried unanswered goes again (log 123), and a free spare is attached within 1,750 ticks;
with none free, a port in ACTIVE, DRAINING or RELOCK whose last pair it was goes DOWN with CODE 5 (that a spare already on its way is
not free is log 98). A port that holds 20 pairs takes no spare. A spare that locks carries flits, and locks a port in RELOCK that had
no pair; one that fails twice is marked failed. Lost alignment takes every link down. -/
def Sys2Proof.Statements.LinksFailAndSparesAttach : Prop :=
  ∀ (s : State) (l : Nat), .counterSnapshot ∉ s.sched.agenda →
    let k := s.link l
    let broken := s.breakLink l
    let again := if k.attaching then broken else broken.resendFrom k.port
    exec (.linkLockLoss l) s = exec (.linkFail l) s ∧
    (127 < l ∨ k.failed = true → exec (.linkFail l) s = .next s) ∧
    (l ≤ 127 → k.failed = false →
      (broken.link l).failed = true ∧ (broken.link l).replay = [] ∧
      (∀ m r, broken.pairsOf k.port = m :: r → (broken.link m).replay = (s.link m).replay ++ k.replay) ∧
      (5 < k.port → exec (.linkFail l) s = .next broken) ∧
      (k.port ≤ 5 → broken.freeSpares.length ≤ broken.attachesTo (fun _ => true) →
        let st := (again.port k.port).state
        let down := again.pairsOf k.port = [] ∧ (st = .active ∨ st = .draining ∨ st = .relock)
        (down → exec (.linkFail l) s = .next (again.enterPort k.port .down 5)) ∧
        (¬down → exec (.linkFail l) s = .next (again.checkDark k.port))) ∧
      (k.port ≤ 5 → broken.attachesTo (fun _ => true) < broken.freeSpares.length →
        exec (.linkFail l) s = .next (again.later 1750 rankLand (.spareAttach k.port)))) ∧
    (∀ p, (s.freeSpares = [] → exec (.spareAttach p) s = .next (s.checkPairs p)) ∧
      (s.freeSpares ≠ [] → 20 ≤ s.holding p → exec (.spareAttach p) s = .next s) ∧
      (∀ m r, s.freeSpares = m :: r → s.holding p < 20 → exec (.spareAttach p) s =
        .next ((s.modLink m (fun k => { k with port := p, attaching := true, spareFails := 0 })).trainSpare m))) ∧
    (k.attaching = false → ∀ ok, exec (.spareLock l ok) s = .next s) ∧
    (k.attaching = true →
      (let s1 := s.modLink l (fun k => { k with attaching := false })
       let locks := (s.port k.port).state = .relock ∧ s.pairsOf k.port = []
       (locks → exec (.spareLock l true) s = .next (s1.nextNow [.relockLock k.port])) ∧
       (¬locks → exec (.spareLock l true) s = .next s1)) ∧
      (k.spareFails = 0 → exec (.spareLock l false) s = .next ((s.modLink l (fun k => { k with spareFails := 1 })).trainSpare l)) ∧
      (k.spareFails ≠ 0 →
        let s1 := s.modLink l (fun k => { k with attaching := false, failed := true, spareFails := 2 })
        (s1.freeSpares.length ≤ s1.attachesTo (fun _ => true) → exec (.spareLock l false) s = .next (s1.checkPairs k.port)) ∧
        (s1.attachesTo (fun _ => true) < s1.freeSpares.length → exec (.spareLock l false) s = .next (s1.later 1750 rankLand (.spareAttach k.port))))) ∧
    (∃ s', exec .alignmentLoss s = .next s' ∧ s'.fabric.aligned = false ∧ ∀ m, m < 128 → (s'.link m).failed = true)

/-- R414, R416 to R423, R435, R444, R448 to R450: flits, lanes, link pairs and spares. -/
def Obligations.LinksRetrainAndFail : Prop :=
  Statements.SnapshotsComeFirst ∧ Statements.FlitsAndReplays ∧ Statements.LanesThatAreDue ∧ Statements.LanesRetrain ∧ Statements.LinksFailAndSparesAttach

/-- R443, R444, R453: the NI takes the command of a full PCMD cell and empties the cell. DRAIN drains an ACTIVE port and is refused
in RELOCK; RELOCK trains a port in DARK or DOWN, where free spares join it up to 20 pairs, and is refused in the other states; a
reserved command is refused; one overwritten before it is taken is taken as the other. -/
def Sys2Proof.Statements.PortCommands : Prop :=
  (∀ (p : Nat) (w : W64), pcmdEvent p w =
    if w.toNat / 2 ^ 17 ≠ 0 then .pcmdReserved p else if w.toNat % 8 = 1 then .drain p else if w.toNat % 8 = 2 then .relock p
    else .pcmdReserved p) ∧
  ∀ (s : State) (p : Nat),
    let a := s.fabric.fcb + 64 * p
    let w := s.mem.word a
    let s1 := s.setFull (a / 8) false
    let there := s.fabric.fcb ≠ 0 ∧ p ≤ 5 ∧ s.mem.isFull (a / 8) = true
    let lock := fun (x : State) => (x.modPort p (fun r => { r with npeer := fld w 3 11, nport := fld w 14 3 })).startRelock p 0
    (¬there → exec (.drain p) s = .next s ∧ exec (.relock p) s = .next s ∧ exec (.pcmdReserved p) s = .next s) ∧
    (there → pcmdEvent p w = .drain p →
      ((s.port p).state = .active → exec (.drain p) s = .next ((s1.enterPort p .draining 0).later 0 rankLand (.portDark p))) ∧
      ((s.port p).state = .relock → exec (.drain p) s = .next (s1.fillStatus p 1)) ∧
      ((s.port p).state = .draining ∨ (s.port p).state = .dark ∨ (s.port p).state = .down →
        exec (.drain p) s = .next (s1.fillStatus p 0))) ∧
    (there → pcmdEvent p w = .relock p →
      ((s.port p).state = .dark → exec (.relock p) s = .next (lock s1)) ∧
      ((s.port p).state = .down → exec (.relock p) s = .next (lock (s1.attachSpares p))) ∧
      ((s.port p).state = .active ∨ (s.port p).state = .draining ∨ (s.port p).state = .relock →
        exec (.relock p) s = .next (s1.fillStatus p 1))) ∧
    (there → pcmdEvent p w = .pcmdReserved p → exec (.pcmdReserved p) s = .next (s1.fillStatus p 1)) ∧
    (∀ e ∈ [Instr.drain p, .relock p, .pcmdReserved p], there → pcmdEvent p w ≠ e → exec e s = .next (s.nextNow [pcmdEvent p w])) ∧
    (∀ (x : State), x.freeSpares.length ≤ x.attachesTo (fun _ => true) ∨ 20 ≤ x.holding p → x.attachSpares p = x)

/-- R444 to R446: the states of a port. A neighbour's marker drains an ACTIVE port; with its own markers acknowledged and the
neighbour's on every pair a draining port goes DARK; DARKLIM ticks in DARK end it with CODE 4; a lock makes it ACTIVE, unless it has no
pair, and a failed lock DOWN with CODE 2 or 3. -/
def Sys2Proof.Statements.PortStates : Prop :=
  ∀ (s : State) (p : Nat), .counterSnapshot ∉ s.sched.agenda →
    let r := s.port p
    let all := fun (n : Nat) => (s.pairsOf p).length ≤ n
    (r.state ≠ .active → r.state ≠ .draining → exec (.drainMarkerArrival p) s = .next s) ∧
    (r.state = .draining →
      let s1 := s.modPort p (fun r => { r with markers := r.markers + 1 })
      (r.acked = true ∧ all (r.markers + 1) → exec (.drainMarkerArrival p) s = .next (s1.enterPort p .dark 0)) ∧
      (¬(r.acked = true ∧ all (r.markers + 1)) → exec (.drainMarkerArrival p) s = .next s1)) ∧
    (r.state = .active → ∃ s', exec (.drainMarkerArrival p) s = .next s' ∧ (s'.port p).state = .draining ∧ (s'.port p).markers = 1) ∧
    (r.state ≠ .draining → exec (.portDark p) s = .next s) ∧
    (r.state = .draining →
      let s1 := s.modPort p (fun r => { r with acked := true })
      (all r.markers → exec (.portDark p) s = .next (s1.enterPort p .dark 0)) ∧
      (¬all r.markers → exec (.portDark p) s = .next s1)) ∧
    (let due := r.since + s.fabric.darklim.toNat
     (r.state ≠ .dark → exec (.darklimExpiry p) s = .next s) ∧
     (r.state = .dark → due ≤ s.ticks → exec (.darklimExpiry p) s = .next (s.startRelock p 4)) ∧
     (r.state = .dark → s.ticks < due → exec (.darklimExpiry p) s =
       .next ((s.cancelTimer (.darklimExpiry p)).sched_ due Sys2Proof.Machine.rankFault (.darklimExpiry p)))) ∧
    (r.state ≠ .relock → exec (.relockLock p) s = .next s) ∧
    (r.state = .relock → s.pairsOf p ≠ [] → exec (.relockLock p) s = .next (s.enterPort p .active 0)) ∧
    (r.state = .relock → s.pairsOf p = [] → exec (.relockLock p) s =
      .next ((s.cancelTimer (.relockFail p false)).sched_ (max (s.ticks + 1) (r.since + 70000)) rankLand (.relockFail p false))) ∧
    (r.state = .relock → exec (.relockFail p true) s = .next (s.enterPort p .down 2) ∧
      exec (.relockFail p false) s = .next (s.enterPort p .down 3)) ∧
    (r.state ≠ .relock → ∀ b, exec (.relockFail p b) s = .next s) ∧
    (∀ st code, ((s.enterPort p st code).port p).state = st ∧ ((s.enterPort p st code).port p).changes = r.changes + 1)

/-- R435, R445, R476: a HOLD notice is in force until its RELEASE, which lets the requests that waited go; when the port is down, they and
what has been injected across it go by the other direction of the ring. -/
def Sys2Proof.Statements.HoldsAndReleases : Prop :=
  ∀ (s : State) (n p : Nat),
    ((n, p) ∈ s.ni.holds → exec (.holdNotice n p) s = .next s) ∧
    ((n, p) ∉ s.ni.holds → exec (.holdNotice n p) s = .next { s with ni := { s.ni with holds := s.ni.holds ++ [(n, p)] } }) ∧
    (let s1 := { s with ni := { s.ni with holds := s.ni.holds.filter (fun h => h ≠ (n, p)) } }
     exec (.releaseNotice n ⟨p, false⟩) s = .next s1.injectAll ∧
     exec (.releaseNotice n ⟨p, true⟩) s = .next (s1.rerouteFrom n p).injectAll) ∧
    (∀ o, s.ni.out = [o] →
      (s.linkOf n p ∉ s.linksOf o → s.rerouteFrom n p = s) ∧
      (s.linkOf n p ∈ s.linksOf o → o.sent = true → s.rerouteFrom n p = s.resend o (p / 2)))

/-- R443: a PTCMD is applied whole, or rejected whole with bit 63 in its answer; its cell is emptied and the answer's filled. -/
def Sys2Proof.Statements.PeerTableCommands : Prop :=
  ∀ (s : State),
    let f := s.fabric.fcb
    let w := s.mem.word (f + 0x808)
    let first := w.toNat % 2 ^ 11
    let count := w.toNat / 2 ^ 11 % 2 ^ 11 + 1
    let entry := fun (i : Nat) => s.mem.word (f + 0x1000 + 8 * i)
    let ok := w.toNat / 2 ^ 23 = 0 ∧ first + count ≤ 2048 ∧ (∀ i, first ≤ i → i < first + count → imageOk i (entry i) = true) ∧
      (bit w 22 = true → ringOk (s.mem.word (f + 0x800)) = true)
    (f = 0 ∨ s.mem.isFull ((f + 0x808) / 8) = false → exec .ptcmd s = .next s) ∧
    (f ≠ 0 → f % 8 = 0 → s.mem.isFull ((f + 0x808) / 8) = true → ∃ s', exec .ptcmd s = .next s' ∧
      s'.mem.isFull ((f + 0x808) / 8) = false ∧ s'.mem.isFull ((f + 0x810) / 8) = true ∧
      (ok → s'.mem.word (f + 0x810) = w ∧ (∀ i, s'.ni.table.getD i 1 = if first ≤ i ∧ i < first + count then entry i else s.ni.table.getD i 1) ∧
        s'.ni.ring = if bit w 22 then s.mem.word (f + 0x800) else s.ni.ring) ∧
      (¬ok → s'.mem.word (f + 0x810) = w ||| (1 <<< 63 : W64) ∧ s'.ni.table = s.ni.table ∧ s'.ni.ring = s.ni.ring))

/-- R421, R442, R448, R451: LANECLR returns the FAILED lanes that it names at the next group of slots, and makes a failed pair a
free spare; DBOUND is at least 262,144; LTHRESH is stored. -/
def Sys2Proof.Statements.FabricRegisters : Prop :=
  ∀ (s : State) (val : W64),
    let l := val.toNat / 2 ^ 16 % 2 ^ 7
    let k := s.link l
    let s0 := { s with fabric := { s.fabric with laneclr := at_ l 16 } }
    exec (.dboundWrite val) s = .next { s with fabric := { s.fabric with
      dbound := BitVec.ofNat 32 (max 262144 (val.toNat % 2 ^ 32)) } } ∧
    exec (.lthreshWrite val) s = .next { s with fabric := { s.fabric with lthresh := val.setWidth 32 } } ∧
    (k.failed = true → ∃ s', exec (.laneclrWrite val) s = .next s' ∧ (s'.link l).failed = false ∧ (s'.link l).port = 7 ∧
      (s'.link l).spare = true ∧ ∀ x ∈ (s'.link l).lanes, x.state = .up) ∧
    (k.failed = false → (∀ i, i < 8 → val.getLsbD i = true → (k.lane i).state ≠ .failed) → exec (.laneclrWrite val) s = .next s0) ∧
    (∀ i, k.failed = false → i < 8 → val.toNat % 2 ^ 8 = 2 ^ i → (k.lane i).state = .failed →
      exec (.laneclrWrite val) s =
        .next ((s0.modLink l (fun k => k.setLane i (fun x => { x with state := .ret, due := false, tries := 0 }))).sched_
          (nextGroup s.ticks) rankLand (.laneReturn l i)))

/-- R421, R442 to R446, R448, R451, R453, R476: ports, their commands and notices, the peer table and the fabric registers. -/
def Obligations.PortsAndFabricRegisters : Prop :=
  Statements.PortCommands ∧ Statements.PortStates ∧ Statements.HoldsAndReleases ∧ Statements.PeerTableCommands ∧
    Statements.FabricRegisters

/-! ### Host link (spec 26) -/

/-- R462, R463, R472: power comes up in reset; the release of reset starts the package in its reset state, TICKS 0; without
power nothing starts; the removal of power keeps nothing of the package. -/
def Sys2Proof.Statements.PowerAndReset : Prop :=
  ∀ (s : State),
    (s.host.power = true → exec .powerUp s = .next s ∧
      exec .resetRelease s = .next { State.reset with host := { State.reset.host with mem := s.host.mem } }) ∧
    (s.host.power = false → exec .powerUp s = .next { s with host := { s.host with power := true, running := false } } ∧
      exec .resetRelease s = .next s) ∧
    exec .powerRemoval s =
      .next { State.reset with host := { State.reset.host with mem := s.host.mem, power := false, running := false } }

/-- The package is up, and has not tripped. -/
def Sys2Proof.Statements.cool (s : State) : Prop := s.host.power = true ∧ s.host.running = true ∧ s.host.trip = false

/-- R463, R464: BOOTGO in WAIT or FAIL reads and checks the image: the firmware runs, or FAIL holds the code of the first check
that fails; a vector-0 interrupt follows. In another state it has no effect. The digest and the signature are those of SHA-384 and
ECDSA P-384 (log 14). -/
def Sys2Proof.Statements.TheFirmwareBoots : Prop :=
  (∀ (s : State) (r : ImageRead), Statements.cool s →
    (s.host.boot ≠ 1 → s.host.boot ≠ 4 → exec (.bootgo r) s = .next s) ∧
    (s.host.boot = 1 ∨ s.host.boot = 4 →
      let i := readImage s.host.mem (s.host.bootImg.toNat / 2 ^ 12 * 2 ^ 12)
      (∀ c, imageFault i r Config.fwSvn = some c → exec (.bootgo r) s =
        .next ({ s with host := { s.host with boot := 4, bootCode := BitVec.ofNat 8 c } }.interrupt 0 0)) ∧
      (imageFault i r Config.fwSvn = none → exec (.bootgo r) s = .next ({ s with host := { s.host with
        boot := 3, bootCode := 0, fwDigest := sha384 i.body, fwSvn := BitVec.ofNat 16 i.svn } }.interrupt 0 0)))) ∧
  (∀ (i : Image) (r : ImageRead) (svn : Nat),
    let badHead := i.len % 64 ≠ 0 ∨ i.len < 64 ∨ 2 ^ 26 < i.len ∨ i.gap ≠ 0 ∨ ∃ b ∈ i.zero, b ≠ 0
    let signed := ecdsaVerify i.key i.sig (sha384 (i.head ++ i.body))
    (badHead → imageFault i r svn = some 4) ∧
    (¬badHead → r = .readError → imageFault i r svn = some 5) ∧
    (¬badHead → r ≠ .readError → sha384 i.key ≠ Config.keyHash → imageFault i r svn = some 1) ∧
    (¬badHead → r ≠ .readError → sha384 i.key = Config.keyHash →
      (i.svn < svn → imageFault i r svn = some 3) ∧
      (svn ≤ i.svn → signed = false → imageFault i r svn = some 2) ∧
      (svn ≤ i.svn → signed = true → imageFault i r svn = none)))

/-- R467, R469: a partition command while PARTSTAT is busy is ignored; one that finds no start of the queue processor waits for it,
PARTSTAT busy, and so it goes on until one is due; a good microcode blob waits likewise. -/
def Sys2Proof.Statements.PartitionCommandsWait : Prop :=
  ∀ (s : State) (p : Nat) (r : ImageRead) (v : W64),
    let kept := fun (x : HostRec) (e : Instr) (cmd : W64) =>
      ({ s with host := { x with partcmd := cmd, partstat := 1, partcode := 0, partWait := some e } } : State)
    (∀ e ∈ [Instr.apply p, .clear p, .mapout p, .mapin p, .ucode r, .partcmdReserved v],
      (s.host.partstat = 1 → s.host.partWait ≠ some e → exec e s = .next s) ∧
      (s.host.partWait = some e → s.startDue = false → exec e s = .next s)) ∧
    (Statements.cool s → s.host.partstat ≠ 1 → s.startDue = false →
      (∀ e cmd, (e, cmd) ∈ [(Instr.apply p, at_ 1 0 ||| at_ (p % 32) 3), (.clear p, at_ 2 0 ||| at_ (p % 32) 3),
          (.mapout p, at_ 3 0 ||| at_ (p % 2048) 8), (.mapin p, at_ 4 0 ||| at_ (p % 2048) 8), (.partcmdReserved v, v &&& 0x7FFFF)] →
        s.host.partWait ≠ some e → exec e s = .next (kept s.host e cmd)) ∧
      (let i := readImage s.host.mem s.host.partarg.toNat
       s.host.partWait ≠ some (.ucode r) → imageFault i r Config.ucSvn = none →
         exec (.ucode r) s = .next (kept { s.host with ucNext := sha384 i.body } (.ucode r) (at_ 5 0))))

/-- A partition command finds a start of the queue processor: it has waited for it, or comes now and PARTSTAT is not busy. -/
def Sys2Proof.Statements.starts (s : State) (e : Instr) : Prop :=
  Statements.cool s ∧ s.startDue = true ∧ (s.host.partWait = some e ∨ s.host.partstat ≠ 1)

/-- The state in which its effect begins: the start is used. -/
def Sys2Proof.Statements.started (s : State) (e : Instr) (cmd : W64) : State :=
  let h := if s.host.partWait = some e then s.host else { s.host with partcmd := cmd, partstat := 1, partcode := 0 }
  { s with qp := { s.qp with lastTick := s.ticks }, host := { h with partWait := none } }

/-- R458, R461, R466, R467: APPLY and CLEAR at a start, the dispatches that they lead to in the next tick (log 126): a wrong number or
record is code 1, a resource of another partition code 2, one in use code 3; else the record is in force, or gone. -/
def Sys2Proof.Statements.PartitionsAreApplied : Prop :=
  ∀ (s : State) (p : Nat),
    let ends := fun (e : Instr) (x : State) (code : Option Nat) => exec e s = .next (x.partDone code).dispatchLater
    (Statements.starts s (.apply p) →
      let s0 := Statements.started s (.apply p) (at_ 1 0 ||| at_ (p % 32) 3)
      let r := s0.stageWords
      let clash := ∃ e ∈ s0.host.parts, e.1 ≠ p ∧ partsClash e.2 r = true
      (31 < p ∨ partOk r = false → ends (.apply p) s0 (some 1)) ∧
      (p ≤ 31 → partOk r = true →
        (clash → ends (.apply p) s0 (some 2)) ∧
        (¬clash → s0.partBusy p (some r) = true → ends (.apply p) s0 (some 3)) ∧
        (¬clash → s0.partBusy p (some r) = false → ∃ s', exec (.apply p) s = .next s' ∧ s'.host.parts.find? p = some r ∧
          (s'.vf (partVf r)).bound = some p ∧ s'.host.partstat = 2 ∧
          ((s'.vf (partVf r)).used = true ↔ ∃ q, q < 64 ∧ partHasQueue r q = true ∧ (s.queue q).en = true) ∧
          ∀ q, q ≠ p → s'.host.parts.find? q = s0.host.parts.find? q))) ∧
    (Statements.starts s (.clear p) →
      let s0 := Statements.started s (.clear p) (at_ 2 0 ||| at_ (p % 32) 3)
      (31 < p → ends (.clear p) s0 (some 1)) ∧
      (p ≤ 31 → s0.partBusy p none = true → ends (.clear p) s0 (some 3)) ∧
      (p ≤ 31 → s0.partBusy p none = false → ∃ s', exec (.clear p) s = .next s' ∧ s'.host.parts.find? p = none ∧
        s'.host.partstat = 2 ∧ (∀ old, s0.host.parts.find? p = some old → (s'.vf (partVf old)).bound ≠ some p) ∧
        ∀ q, q ≠ p → s'.host.parts.find? q = s0.host.parts.find? q))

/-- R464, R467, R469, R470: at a start, a row that no context holds is mapped out, a held one when it is free; MAPIN brings it back;
good microcode is loaded and starts rest up to 131,072 ticks; a reserved command is code 1. A microcode blob that fails its checks
fails at once. -/
def Sys2Proof.Statements.RowsAndMicrocode : Prop :=
  ∀ (s : State) (n : Nat) (r : ImageRead) (v : W64),
    let ends := fun (e : Instr) (x : State) (code : Option Nat) => exec e s = .next (x.partDone code).dispatchLater
    (Statements.starts s (.mapout n) →
      let s0 := Statements.started s (.mapout n) (at_ 3 0 ||| at_ (n % 2048) 8)
      (1152 ≤ n → ends (.mapout n) s0 (some 1)) ∧
      (n < 1152 → (s0.row n).mappedOut = true → ends (.mapout n) s0 none) ∧
      (n < 1152 → (s0.row n).mappedOut = false → s0.rowFree n = true →
        ends (.mapout n) (s0.modRow n (fun _ => { RowRec.fresh with mappedOut := true })) none) ∧
      (n < 1152 → (s0.row n).mappedOut = false → s0.rowFree n = false → ∃ s', exec (.mapout n) s = .next s' ∧
        s'.host.partstat = s0.host.partstat ∧ (s'.row n).mapoutReq = true ∧ (s'.row n).mappedOut = false)) ∧
    (Statements.starts s (.mapin n) →
      let s0 := Statements.started s (.mapin n) (at_ 4 0 ||| at_ (n % 2048) 8)
      (1152 ≤ n → ends (.mapin n) s0 (some 1)) ∧
      (n < 1152 → ∃ s', exec (.mapin n) s = .next s' ∧ (s'.row n).mappedOut = false ∧ s'.host.partstat = 2)) ∧
    (Statements.starts s (.partcmdReserved v) →
      ends (.partcmdReserved v) (Statements.started s (.partcmdReserved v) (v &&& 0x7FFFF)) (some 1)) ∧
    (let i := readImage s.host.mem s.host.partarg.toNat
     (∀ c, Statements.cool s → s.host.partstat ≠ 1 → s.host.partWait ≠ some (.ucode r) → imageFault i r Config.ucSvn = some c →
       exec (.ucode r) s = .next ({ s with host := { s.host with
         partcmd := at_ 5 0, partstat := 3, partcode := BitVec.ofNat 16 (4 + 256 * c) } }.interrupt 0 0)) ∧
     (Statements.starts s (.ucode r) → s.host.partWait = some (.ucode r) ∨ imageFault i r Config.ucSvn = none →
       ∃ s', exec (.ucode r) s = .next s' ∧ s'.host.partstat = 2 ∧ s'.host.ucLoads = s.host.ucLoads + 1 ∧
         s'.host.ucDigest = (if s.host.partWait = some (.ucode r) then s.host.ucNext else sha384 i.body) ∧
         s'.qp.ucodeAt ≤ s.ticks + 131072 ∧ s'.qp.lastTick = s.ticks))

/-- R468: CREATE makes the ASID live with the staged resources when the partition has the ASID, it is free, and the resources lie in
the partition; DESTROY ends it; otherwise code 2. A function that is not bound, or busy, takes no command. Whether a new
context spans packages is free (log 23). -/
def Sys2Proof.Statements.ContextsAreCreatedAndDestroyed : Prop :=
  ∀ (s : State) (n a : Nat) (m : Bool), Statements.cool s →
    (s.boundPart n = none ∨ (s.vf n).ctxstat = 1 → exec (.create n a m) s = .next s ∧ exec (.destroy n a) s = .next s) ∧
    (∀ r, s.boundPart n = some r → (s.vf n).ctxstat ≠ 1 →
      let c := (s.vf n).staged n a m
      let fits := partHasAsid r a = true ∧ s.ctx? a = none ∧ 17 ≤ c.pages ∧
        ∀ x ∈ ctxRanges c.segs c.save c.cnt c.tbl c.pages, partHasDram r x.1 x.2 = true
      (fits → ∃ s', exec (.create n a m) s = .next s' ∧ (s'.vf n).ctxstat = 2 ∧
        (∃ b, s'.ctx? a = some { c with spans := b } ∧ (s.otherPeers = [] → b = false)) ∧
        (∀ b, b ≠ a → s'.ctx? b = s.ctx? b) ∧ s'.host.msix = s.host.msix ++ [(1 + n, 0)]) ∧
      (¬fits → ∃ s', exec (.create n a m) s = .next s' ∧ s'.ctxs = s.ctxs ∧ (s'.vf n).ctxstat = 3 ∧ (s'.vf n).ctxcode = 2) ∧
      (partHasAsid r a = false ∨ s.ctx? a = none → ∃ s', exec (.destroy n a) s = .next s' ∧ s'.ctxs = s.ctxs ∧
        (s'.vf n).ctxstat = 3 ∧ (s'.vf n).ctxcode = 2) ∧
      (∀ c, partHasAsid r a = true → s.ctx? a = some c → c.phase ≠ .destroying → ∃ s', exec (.destroy n a) s = .next s' ∧
        s'.threadsOf a = [] ∧ (∀ d, s'.ctx? a = some d → d.phase = .destroying ∧ d.rows = [] ∧ d.saved = none)))

/-- R458, R465: an attestation report is asked for, ATT + 0x38 reading 1 until, after a free time, its 448 bytes are written at the bus
address given; an interrupt follows. The key and the number that signs are free values (log 14). -/
def Sys2Proof.Statements.ReportsAreSigned : Prop :=
  (∀ (s : State) (fn : Nat), s.host.power = true → s.host.running = true →
    (0 < fn → s.boundPart (fn - 1) = none → ∀ b, exec (.attestationRequest ⟨fn, b⟩) s = .next s) ∧
    (fn = 0 ∨ s.boundPart (fn - 1) ≠ none →
      let asked := (s.fn fn).att.getD 0x38 0 ≠ 0
      let d := s.draw (p384Order - 1)
      (asked → exec (.attestationRequest ⟨fn, false⟩) s = .next s) ∧
      (¬asked → exec (.attestationRequest ⟨fn, true⟩) s = .next s) ∧
      (¬asked → exec (.attestationRequest ⟨fn, false⟩) s =
        .next ((s.modFn fn (fun v => v.writeAtt 0x38 1)).later 0 rankLand (.attestationRequest ⟨fn, true⟩))) ∧
      (asked → exec (.attestationRequest ⟨fn, true⟩) s = .next (({ d.2 with host := { d.2.host with
        mem := hostWrite d.2.host.mem (leNat (attBytes (s.fn fn) 0x30 8)) (s.report fn (1 + d.1)) } }.modFn fn
          (fun v => v.writeAtt 0x38 0)).interrupt fn 0)))) ∧
  (∀ (s : State) (fn k : Nat),
    let b := s.reportBody fn
    b.length = 256 ∧ (s.report fn k).length = 448 ∧
      s.report fn k = b ++ ecdsaSign identityNumber k (sha384 b) ++ publicKey identityNumber)

/-- R472: after a TRIP the package waits for the removal of power; that it takes no command until then is the model's choice (log 127). -/
def Sys2Proof.Statements.ATripEndsCommands : Prop :=
  ∀ (s : State) (n a : Nat) (v : W64) (r : ImageRead) (m : Bool), s.host.power = true → s.host.running = true → s.host.trip = true →
    ∀ e ∈ [Instr.bootgo r, .apply n, .clear n, .mapout n, .mapin n, .ucode r, .partcmdReserved v, .create n a m, .destroy n a],
      exec e s = .next s

/-- R458, R462 to R470, R472: power, reset, boot, partitions, contexts and attestation. -/
def Obligations.HostCommandsRun : Prop :=
  Statements.PowerAndReset ∧ Statements.TheFirmwareBoots ∧ Statements.PartitionCommandsWait ∧ Statements.PartitionsAreApplied ∧
    Statements.RowsAndMicrocode ∧ Statements.ContextsAreCreatedAndDestroyed ∧ Statements.ReportsAreSigned ∧
    Statements.ATripEndsCommands

/-- R96, R461: a function stores the offered features that it accepts, unless its partition is in use, and its contexts have the
features that are accepted now. -/
def Sys2Proof.Statements.FeaturesAreAccepted : Prop :=
  ∀ (s : State) (n i : Nat) (val : W64), s.host.power = true → s.host.running = true →
    (s.boundPart n = none → exec (.acceptWrite n i val) s = .next s) ∧
    (∀ r p, s.boundPart n = some r → (s.vf n).bound = some p →
      let inUse := (∃ q, q < 64 ∧ partHasQueue r q = true ∧ (s.queue q).en = true) ∨ s.partCtxs p ≠ []
      let s1 := s.modVf n (fun v => { v with
        accept := v.accept.setD i (if i = 0 then val &&& Config.offered.setWidth 64 else 0) 0 })
      (3 < i → exec (.acceptWrite n i val) s = .next s) ∧
      (i ≤ 3 → (s.vf n).used = true → inUse → exec (.acceptWrite n i val) s = .next s) ∧
      (i ≤ 3 → (s.vf n).used = false ∨ ¬inUse → exec (.acceptWrite n i val) s = .next { s1 with ctxs := s1.ctxs.map (fun e =>
        (e.1, if e.2.vf = n then { e.2 with features := (s1.vf n).accept.getD 0 0 } else e.2)) }))

/-- R316, R326, R442, R459, R460: a 64-bit write of a register sets its writable bits; a write of no register is ignored. -/
def Sys2Proof.Statements.RegistersAreWritten : Prop :=
  ∀ (s : State) (fn off : Nat) (val : W64), s.host.power = true → s.host.running = true →
    let writes := fun (x : State) => exec (.registerWrite fn off val) s = .next x
    (off % 8 ≠ 0 ∨ 64 < fn ∨ (0 < fn ∧ s.boundPart (fn - 1) = none) → writes s) ∧
    (off % 8 = 0 → fn ≤ 64 → fn = 0 ∨ s.boundPart (fn - 1) ≠ none → 0x300 ≤ off → off < 0x338 →
      writes (s.modFn fn (fun v => v.writeAtt (off - 0x300) val))) ∧
    (fn = 0 →
      (off = 0x10 → writes { s with host := { s.host with bootImg := val &&& 0xFFFFFFFFFFFFF000 } }) ∧
      (off = 0x108 → writes { s with host := { s.host with partarg := val } }) ∧
      (∀ i, i < 16 → off = 0x3F80 + 8 * i → writes { s with host := { s.host with stage := s.host.stage.setD i val 0 } }) ∧
      (off = 0x8010 → writes (s.newDarklim (val.setWidth 32)) ∧ ((∀ p, p < 6 → (s.port p).state ≠ .dark) →
        writes { s with fabric := { s.fabric with darklim := val.setWidth 32 } })) ∧
      (off = 0x0 ∨ off = 0x7FF8 → writes s)) ∧
    (∀ n r, fn = n + 1 → fn ≤ 64 → s.boundPart n = some r →
      (off = 0x800 → (s.vf n).ctxstat ≠ 1 → val.toNat % 4 = 0 ∨ val.toNat % 4 = 3 →
        writes (s.modVf n (fun v => { v with ctxcmd := val &&& 0x7FFFF }))) ∧
      (off = 0x810 → writes (s.modVf n (fun v => { v with save := val &&& 0x7FFFFFF000 }))) ∧
      (off = 0x818 → writes (s.modVf n (fun v => { v with cnt := val &&& 0x7FFFFFF000 }))) ∧
      (off = 0x820 → writes (s.modVf n (fun v => { v with tbl := val &&& 0x7FFFFFF000 }))) ∧
      (off = 0x828 → writes (s.modVf n (fun v => { v with pages := val &&& 0xFFFFFF }))) ∧
      (∀ i, i < 32 → off = 0x900 + 8 * i → writes (s.modVf n (fun v => { v with
        segs := v.segs.setD i (val &&& (if i % 2 = 0 then 0x7FFFFFF007 else 0x7FFFFFF000)) 0 }))) ∧
      (∀ q, q < 64 → off = 0x1000 + 64 * q → s.queueVf q ≠ some n → writes s) ∧
      (∀ q, q < 64 → s.queueVf q = some n →
        (off = 0x1000 + 64 * q → writes (s.modQueue q (fun x => { x with base := val &&& 0xFFFFFFFFFFFFF000 }))) ∧
        (off = 0x1038 + 64 * q → writes (s.modQueue q (fun x => { x with errBase := val &&& 0xFFFFFFFFFFFFF000 })))))

/-- R9, R326, R442, R456, R459, R460: what registers read. A read of 8 bytes at a register returns its word; that of THERM clears WARN,
that of a QSTAT its ERRS; a function that is not bound reads zeros, and so does an offset of no register. -/
def Sys2Proof.Statements.RegistersAreRead : Prop :=
  (∀ (s : State) (fn : Nat) (off : W64), s.host.power = true → s.host.running = true → off.toNat % 8 = 0 →
    exec (.hostRead (.registers fn) off 8) s = .next (({ s with host := { s.host with reads := s.host.reads ++
      [(leBytes 8 (s.regWord fn off.toNat).toNat, false)] } }).regSeen fn off.toNat)) ∧
  (∀ (s : State) (fn off : Nat),
    (fn = 0 → off = 0x400 → s.regSeen fn off = { s with host := { s.host with warn := false } }) ∧
    (∀ q, q < 64 → off = 0x1028 + 64 * q → s.queueVf q = some (fn - 1) → 0 < fn →
      s.regSeen fn off = s.modQueue q (fun r => { r with errs := 0 })) ∧
    (fn = 0 → off ≠ 0x400 → s.regSeen fn off = s)) ∧
  (∀ (s : State),
    let h := s.host
    (∀ off w, (off, w) ∈ [(0x0, 0x7200 ||| Config.stepping.setWidth 64 <<< 16), (0x8, at_ h.boot.toNat 0 ||| at_ h.bootCode.toNat 8),
      (0x10, h.bootImg), (0x40, Config.offered.setWidth 64), (0x100, h.partcmd), (0x108, h.partarg),
      (0x110, at_ h.partstat.toNat 0 ||| at_ h.partcode.toNat 8), (0x400, h.therm), (0x8000, s.fabric.dbound.setWidth 64),
      (0x8008, s.fabric.lthresh.setWidth 64), (0x8010, s.fabric.darklim.setWidth 64), (0x8018, BitVec.ofNat 64 s.fabric.fcb),
      (0x8020, s.fabric.laneclr), (0x200, 0)] → s.regWord 0 off = w) ∧
    (∀ i, i < 16 → s.regWord 0 (0x3F80 + 8 * i) = h.stage.getD i 0) ∧
    (∀ p i, p < 32 → i < 16 → s.regWord 0 (0x4000 + 128 * p + 8 * i) = partWord ((h.parts.find? p).getD []) i) ∧
    (∀ i b, i < 18 → b < 64 → (s.regWord 0 (0x6000 + 8 * i)).getLsbD b = (s.row (64 * i + b)).mappedOut) ∧
    (∀ n off, s.boundPart n = none → s.regWord (n + 1) off = 0) ∧
    (∀ n p r, s.boundPart n = some r → (s.vf n).bound = some p →
      let v := s.vf n
      (∀ off w, (off, w) ∈ [(0x0, at_ p 0 ||| at_ 1 5), (0x800, v.ctxcmd), (0x808, at_ v.ctxstat.toNat 0 ||| at_ v.ctxcode.toNat 8),
        (0x810, v.save), (0x818, v.cnt), (0x820, v.tbl), (0x828, v.pages)] → s.regWord (n + 1) off = w) ∧
      (∀ i, i < 4 → s.regWord (n + 1) (0x40 + 8 * i) = v.accept.getD i 0) ∧
      (∀ i, i < 32 → s.regWord (n + 1) (0x900 + 8 * i) = v.segs.getD i 0) ∧
      (∀ q o, q < 64 → o < 64 → s.regWord (n + 1) (0x1000 + 64 * q + o) =
        if s.queueVf q = some n then (s.queue q).word o else 0)) ∧
    (∀ (x : QueueRec) o w, (o, w) ∈ [(0x0, x.base), (0x08, at_ x.log 0), (0x10, at_ x.tail 0), (0x18, at_ x.head 0),
      (0x20, atB x.en 0 ||| atB x.loc 1 ||| at_ x.prio 2 ||| at_ x.ctx 16), (0x28, x.qstat), (0x30, x.cancel.setWidth 64),
      (0x38, x.errBase)] → x.word o = w))

/-- R33, R456, R457: host reads and writes through BAR 2 reach the partition's share of DRAM and leave FE bits, which its window at 2^39
reads and writes; an unbound function reads zeros; what lies beyond the share and its window reaches nothing. -/
def Sys2Proof.Statements.HostAccessesReachTheShare : Prop :=
  ∀ (s : State) (n : Nat) (off : W64) (k : Nat) (bs : List Byte), s.host.power = true → s.host.running = true →
    let reads := fun (d : List Byte) (p : Bool) => exec (.hostRead (.share n) off k) s =
      .next { s with host := { s.host with reads := s.host.reads ++ [(d, p)] } }
    (s.boundPart n = none → reads (List.replicate k 0) false ∧ exec (.hostWrite n off bs) s = .next s) ∧
    (∀ r, s.boundPart n = some r →
      let a := shareBase r + off.toNat
      (off.toNat + k ≤ shareBytes r →
        reads (s.mem.readN a k) ((List.range k).any (fun i => s.mem.poisoned ((a + i) / 8)))) ∧
      (off.toNat + bs.length ≤ shareBytes r → exec (.hostWrite n off bs) s = .next (s.setMem (s.mem.writeN a bs)) ∧
        (s.mem.writeN a bs).full = s.mem.full) ∧
      (shareBytes r < off.toNat + k → off.toNat < 2 ^ 39 ∨ shareBytes r < (off.toNat - 2 ^ 39 + k) * 64 → reads [] false) ∧
      (shareBytes r < off.toNat + bs.length → off.toNat < 2 ^ 39 ∨ shareBytes r < (off.toNat - 2 ^ 39 + bs.length) * 64 →
        exec (.hostWrite n off bs) s = .next s) ∧
      (shareBytes r < off.toNat + k → 2 ^ 39 ≤ off.toNat → (off.toNat - 2 ^ 39 + k) * 64 ≤ shareBytes r →
        ∃ d, reads d false ∧ d.length = k ∧ ∀ i j, i < k → j < 8 →
          (d.getD i 0).getLsbD j = s.mem.isFull (shareBase r / 8 + (off.toNat - 2 ^ 39 + i) * 8 + j)) ∧
      (shareBytes r < off.toNat + bs.length → 2 ^ 39 ≤ off.toNat → (off.toNat - 2 ^ 39 + bs.length) * 64 ≤ shareBytes r →
        ∃ s', exec (.hostWrite n off bs) s = .next s' ∧ s'.mem.bytes = s.mem.bytes ∧
          (∀ i j, i < bs.length → j < 8 →
            s'.mem.isFull (shareBase r / 8 + (off.toNat - 2 ^ 39 + i) * 8 + j) = (bs.getD i 0).getLsbD j) ∧
          ∀ k, (∀ i j, i < bs.length → j < 8 → k ≠ shareBase r / 8 + (off.toNat - 2 ^ 39 + i) * 8 + j) →
            s'.mem.isFull k = s.mem.isFull k))

/-- R459, R472: a temperature sample, every 65,536 ticks and at no other, is kept, its highest value too; 95 °C sets WARN, 105 °C TRIP, which ends every context and
stops every queue; a read of THERM clears WARN. -/
def Sys2Proof.Statements.HeatIsWatched : Prop :=
  ∀ (s : State) (t : BitVec 8), s.host.power = true → s.host.running = true →
    let kept := { s with host := { s.host with tj := t, tjMax := if s.host.tjMax.toNat < t.toNat then t else s.host.tjMax } }
    (s.ticks % 65536 ≠ 0 → exec (.thermalSample t) s = .next s) ∧
    (s.ticks % 65536 = 0 → t.toNat < 95 → exec (.thermalSample t) s = .next kept) ∧
    (s.ticks % 65536 = 0 → 95 ≤ t.toNat → t.toNat < 105 → exec (.thermalSample t) s =
      .next ({ kept with host := { kept.host with warn := true } }.interrupt 0 0)) ∧
    (s.ticks % 65536 = 0 → 105 ≤ t.toNat → ∃ s', exec (.thermalSample t) s = .next s' ∧ s'.host.trip = true ∧ s'.host.warn = true ∧
      (∀ a c, s'.ctx? a = some c → c.phase = .destroying) ∧ ∀ q, (s'.queue q).en = false) ∧
    exec .thermRead s = .next { s with host := { s.host with
      reads := s.host.reads ++ [(leBytes 8 (s.host.tj.toNat + s.host.warn.toNat * 2 ^ 8 + s.host.trip.toNat * 2 ^ 9), false)], warn := false } }

/-- R462: while the package is without power or in reset the host reaches nothing of it. -/
def Sys2Proof.Statements.ResetShutsTheHostOut : Prop :=
  ∀ (s : State) (n o : Nat) (v : W64) (bs : List Byte) (r : ImageRead) (m : Bool) (t : BitVec 8) (sp : HostSpace),
    s.host.power = false ∨ s.host.running = false →
    ∀ e ∈ [Instr.bootgo r, .apply n, .clear n, .mapout n, .mapin n, .ucode r, .partcmdReserved v, .create n o m, .destroy n o,
        .attestationRequest ⟨n, m⟩, .acceptWrite n o v, .registerWrite n o v, .hostRead sp v o, .hostWrite n v bs, .thermalSample t,
        .thermRead], exec e s = .next s

/-- R9, R33, R96, R316, R326, R442, R456, R457, R459 to R462, R472: the host's registers, its reads and writes, and heat. -/
def Obligations.HostAccessesAndRegisters : Prop :=
  Statements.FeaturesAreAccepted ∧ Statements.RegistersAreWritten ∧ Statements.RegistersAreRead ∧ Statements.HostAccessesReachTheShare ∧
    Statements.HeatIsWatched ∧ Statements.ResetShutsTheHostOut

/-! ### The whole machine (spec 01, 03, 04, 15, 26) -/

/-- R76, R95, R339, R462, R467: one step. The package does nothing without power or in reset. The events of the present tick come first.
Then each core issues once: the thread that the wheel chooses fetches the word at its pc, and the step is exec of the instruction
that the word decodes to, in the state where that thread issues; an illegal word is ILLEGAL with the word in TVAL, a word outside
loaded code, or a poisoned one, ends the context. With no event and no core left, a partition command that is due comes (R467), and else
TICKS advances by one; the waits, engines and packets that work then leave memory and threads alone when there is none. -/
def Obligations.AStepRunsTheDecodedInstruction : Prop :=
  ∀ (s : State),
    (s.host.power = false ∨ s.host.running = false → step s = .next s) ∧
    (s.host.power = true → s.host.running = true →
      (∀ e r, s.sched.agenda = e :: r → step s = exec e { s with sched := { s.sched with agenda := r, cur := none } }) ∧
      (s.sched.agenda = [] → s.sched.turn = [] →
        (∀ e, s.partDue = some e → step s = .next (s.nextNow [e])) ∧
        (s.partDue = none → step s = .next s.nextTick ∧ s.nextTick.ticks = s.ticks + 1 ∧
          (s.rows = [] → s.copies = [] → s.rxe.waiting = [] → s.mailWaiters = [] → (∀ e ∈ s.threads, s.countWaits e.2.id = false) →
            s.nextTick.mem = s.mem ∧ s.nextTick.threads = s.threads))) ∧
      (∀ core rest, s.sched.agenda = [] → s.sched.turn = core :: rest →
        let s0 := { s with sched := { s.sched with turn := rest } }
        (∀ c, s0.choose core = (none, c) → step s = .next s0) ∧
        (∀ th c, s0.choose core = (some th, c) →
          let th' := th.takeForward
          let s1 := (s0.putCore core c).putThread th'
          let s2 := { s1 with sched := { s1.sched with cur := some th.id } }
          let w := s2.codeWord th.id.core th'.pc
          let goes := fun (o : Host.Outcome State Fault Refusal) => step s = s0.orHoldBack th o
          let fetches := ¬(th'.cancel = true ∧ th'.regions = []) ∧ th'.lost = []
          let bad := s2.mem.badCode.contains (codeKey (th.id.core / 16) th'.pc)
          (th.gang = .none → th' = th ∧ ∀ o, s0.orHoldBack th o = o) ∧
          (fetches → (s2.ctxOf th').loaded th'.pc = true → bad = false →
            (∀ i, decode w = .ok i → goes (exec i (s2.forward th w)) ∧ (th.gang = .none → s2.forward th w = s2)) ∧
            (∀ e, decode w = .error e → goes (.next (s2.trap th.id .illegal (w.setWidth 64) th'.pc)))) ∧
          (fetches → (s2.ctxOf th').loaded th'.pc = false →
            goes (.next (s2.fatalThread th' .protect (BitVec.ofNat 64 th'.pc)
              (if th'.entry = none ∧ th'.insn + 4 = th'.pc then th'.insn else th'.pc)))) ∧
          (fetches → (s2.ctxOf th').loaded th'.pc = true → bad = true →
            goes (.next (s2.fatalThread th' .poison (BitVec.ofNat 64 th'.pc) th'.pc))))))

/-- No instruction is refused. One that has a word faults only without a thread that issues it, and answers a next state for every
thread of a context; an event answers a next state in every state. -/
def Obligations.EveryInstructionAnswersANextState : Prop :=
  (∀ (i : Instr) (s : State) (r : Refusal), exec i s ≠ .refused r) ∧
  (∀ (i : Instr) (s : State), encode i = none → ∃ s', exec i s = .next s') ∧
  (∀ (i : Instr) (s : State) (t : Tid) (th : Thread) (c : Ctx), s.sched.cur = some t → s.thread? t = some th →
    s.ctx? th.asid = some c → ∃ s', exec i s = .next s') ∧
  (∀ (i : Instr) (s : State), encode i ≠ none → s.sched.cur = none → exec i s = .fault .noIssuingThread)

/-- R76 to R95: the word of a well-formed instruction decodes to that instruction, with every operand at every value. -/
def Obligations.EncodingThenDecodingGivesTheInstruction : Prop :=
  ∀ (i : Instr) (w : W32), i.wf = true → encode i = some w → decode w = .ok i

/-- R76, R78, R82, R95: a word that decodes gives a well-formed instruction, whose word it is: no bit of it is ignored, and each
instruction has one word. -/
def Obligations.DecodedInstructionsEncodeToTheirWord : Prop :=
  ∀ (i : Instr) (w : W32), decode w = .ok i → i.wf = true ∧ encode i = some w

/-- R82, R95: the opcodes that name no instruction: 0x00, 0x0D to 0x0F, 0x17 and 0x34 to 0x3F. -/
def Obligations.ReservedOpcodesAreIllegal : Prop :=
  ∀ (w : W32), decode w = .error .illegalOpcode ↔
    let op := w.toNat / 2 ^ 24 % 2 ^ 6
    op = 0x00 ∨ (0x0D ≤ op ∧ op ≤ 0x0F) ∨ op = 0x17 ∨ 0x34 ≤ op

/-- Words of the spec's encodings and the instructions that they stand for. -/
def Obligations.WordsDecodeAsTheSpecGivesThem : Prop :=
  decode 0x040A180B = .ok (.sext 0 5 6 .h) ∧ decode 0x0A0E1C03 = .ok (.srai 0 7 7 3) ∧
  decode 0x0218102A = .ok (.mulhu 0 12 4 5) ∧ decode 0x10424002 = .ok (.b 0 .ltz 9 2) ∧
  decode 0x13000400 = .ok (.jr 0 0 1 0) ∧ decode 0x160A1B0D = .ok (.fcvt 0 5 6 .f32 .w true) ∧
  decode 0x26594C1A = .ok (.vfcmp 0 3 .lt 5 6 0 .f32) ∧ decode 0x28107854 = .ok (.vext 0 7 2 .w 5) ∧
  decode 0x2827F7DC = .ok (.vbcasti 0 4 (-3) .i16) ∧ decode 0x2E00280C = .ok (.gbar 0 10 true) ∧
  decode 0x2E000025 = .ok (.gang 0 .g4 .lead) ∧ decode 0x2F102450 = .ok (.topen 0 8 9 10) ∧
  decode 0x31002420 = .ok (.csrw 0 0 9 0x020) ∧ decode 0x3200002A = .ok (.trap 0 42)

/-- State.wf, the model's own invariant over memory (R33, R34): the bytes, FE bits and poison keep their canonical form, and every
thread stands under its own name. Every step keeps it, from every state that has it. -/
def Obligations.EveryStepKeepsTheCanonicalForm : Prop :=
  ∀ (s s' : State), s.wf = true → step s = .next s' → s'.wf = true

/-- R14 to R39, R326, R396, R442, R444, R462, R463: what reset leaves. TICKS and the marks 0, no thread, no context, no partition;
every queue off with LOG 4; ports DOWN (log 12); memory with nothing listed (log 1), in its canonical form. -/
def Obligations.ResetIsTheStateThatTheSpecGives : Prop :=
  let s := State.reset
  s.ticks = 0 ∧ s.swm = 0 ∧ s.threads = [] ∧ s.ctxs = [] ∧ s.kernels = [] ∧ s.host.parts = [] ∧ s.host.boot = 0 ∧
    s.host.running = true ∧ (∀ q, (s.queue q).en = false ∧ (s.queue q).log = 4 ∧ (s.queue q).head = 0 ∧ (s.queue q).tail = 0) ∧
    (∀ k, s.mem.read k = 0 ∧ s.mem.isFull k = false ∧ s.mem.poisoned k = false) ∧ (∀ p, (s.port p).state = .down) ∧
    s.wf = true

/-- The register that an instruction writes, for the instructions that only write one register and raise flags. -/
def Sys2Proof.Statements.writesOne : Instr → Option RegRef
  | .add _ d _ _ | .sub _ d _ _ | .and _ d _ _ | .or _ d _ _ | .xor _ d _ _ | .sll _ d _ _ | .srl _ d _ _ | .sra _ d _ _
  | .mul _ d _ _ | .mulh _ d _ _ | .mulhu _ d _ _ | .div _ d _ _ | .divu _ d _ _ | .rem _ d _ _ | .remu _ d _ _
  | .slt _ d _ _ | .sltu _ d _ _ | .min _ d _ _ | .max _ d _ _ | .clz _ d _ | .ctz _ d _ | .popc _ d _ | .sext _ d _ _
  | .zext _ d _ _ | .andn _ d _ _ | .cmov _ d _ _ | .addi _ d _ _ | .andi _ d _ _ | .ori _ d _ _ | .slli _ d _ _
  | .srli _ d _ _ | .srai _ d _ _ | .li _ d _ | .lim _ d _ | .faddS _ d _ _ | .fsubS _ d _ _ | .fmulS _ d _ _
  | .fdivS _ d _ _ | .fsqrtS _ d _ | .fminS _ d _ _ | .fmaxS _ d _ _ | .fmaS _ d _ _ | .faddD _ d _ _ | .fsubD _ d _ _
  | .fmulD _ d _ _ | .fdivD _ d _ _ | .fsqrtD _ d _ | .fminD _ d _ _ | .fmaxD _ d _ _ | .fmaD _ d _ _ | .fcmpS _ d _ _
  | .fcmpeS _ d _ _ | .fcmpD _ d _ _ | .fcmpeD _ d _ _ | .fclass _ d _ _ | .fcvt _ d _ _ _ _ | .fround _ d _ _ _
  | .fsgn _ d _ _ _ | .vext _ d _ _ _ | .fmtget _ d _ | .csrr _ d _ => some (.x d)
  | .vadd _ d _ _ _ _ | .vsub _ d _ _ _ _ | .vmul _ d _ _ _ _ | .vmin _ d _ _ _ _ | .vmax _ d _ _ _ _ | .vand _ d _ _ _ _
  | .vor _ d _ _ _ _ | .vxor _ d _ _ _ _ | .vsll _ d _ _ _ _ | .vsrl _ d _ _ _ _ | .vsra _ d _ _ _ _ | .vfadd _ d _ _ _ _
  | .vfsub _ d _ _ _ _ | .vfmul _ d _ _ _ _ | .vfma _ d _ _ _ _ | .vfmin _ d _ _ _ _ | .vfmax _ d _ _ _ _
  | .vfcvt _ d _ _ _ _ | .vshuf _ d _ _ _ _ | .vredadd _ d _ _ _ | .vredmax _ d _ _ _ | .vmerge _ d _ _ _ _ | .vbcast _ d _ _
  | .vins _ d _ _ _ | .vbcasti _ d _ _ | .vsdot _ d _ _ _ | .vscvt _ d _ _ => some (.v d)
  | .vfcmp _ g _ _ _ _ _ | .vmask _ g _ _ _ => some (.m g)
  | .fmtset _ n _ => some (.fm n)
  | _ => none

/-- A pending write of a register, or of FCSR flags. -/
def Sys2Proof.Statements.onlyWrites (r : RegRef) (d : Dst) : Prop :=
  match d with
  | .x q _ => r = .x q
  | .v q _ _ => r = .v q
  | .m q _ _ => r = .m q
  | .fm q _ => r = .fm q
  | .flags _ => True

/-- R77, R97, R101, R124: the frame of the integer, floating-point, vector and format instructions and CSRR with no exception enabled.
Each traps precisely, or changes nothing of the machine beside its own thread and the schedule: memory, cores, contexts and
every other thread stay; of its own thread, the registers, control registers, regions and stores stay; only writes of its
destination and of FCSR flags are pending, and the next instruction is at pc + 4. -/
def Obligations.RegisterInstructionsChangeNothingElse : Prop :=
  ∀ (s s' : State) (i : Instr) (r : RegRef) (t : Tid) (th : Thread), s.sched.cur = some t → s.thread? t = some th → th.id = t →
    th.enables = 0 → Statements.writesOne i = some r → exec i s = .next s' →
    (∃ k v, s' = s.trap t k v th.pc) ∨
    (s' = { s with threads := s'.threads, sched := s'.sched } ∧ (∀ q, tkey q ≠ tkey t → s'.thread? q = s.thread? q) ∧
      s'.sched = { s.sched with agenda := s'.sched.agenda, timers := s'.sched.timers } ∧
      ∃ u new, s'.thread? t = some u ∧
        u = { th with pc := th.pc + 4, insn := th.pc, issuedAt := s.ticks, entry := none, gapUntil := u.gapUntil,
                      pairs := u.pairs, run := u.run, pend := th.pend ++ new } ∧
        ∀ p ∈ new, Statements.onlyWrites r p.dst ∧ s.ticks ≤ p.due)


end Statements
end

