-- ==== Sys2Proof/Laws/Encoding.lean ====
section
/-! SUPPORT. The fields of a word of each form, and the option codes read back. -/

namespace Sys2Proof

theorem extract_lo {m n : Nat} (x : BitVec m) (y : BitVec n) (s k : Nat) (h : s + k ≤ n) :
    (x ++ y).extractLsb' s k = y.extractLsb' s k := BitVec.extractLsb'_append_eq_of_add_le h
theorem extract_hi {m n : Nat} (x : BitVec m) (y : BitVec n) (s k : Nat) (h : n ≤ s) :
    (x ++ y).extractLsb' s k = x.extractLsb' (s - n) k := BitVec.extractLsb'_append_eq_of_le h
theorem extract_all {n : Nat} (x : BitVec n) : x.extractLsb' 0 n = x := BitVec.extractLsb'_eq_self

/-! ### The forms (R78) -/

theorem fields_xr (st : BitVec 2) (op : BitVec 6) (d : BitVec 7) (a : BitVec 7) (b : BitVec 7) (fn : BitVec 3) :
    field (encXR st op d a b fn) 30 2 = st ∧
    field (encXR st op d a b fn) 24 6 = op ∧
    field (encXR st op d a b fn) 17 7 = d ∧
    field (encXR st op d a b fn) 10 7 = a ∧
    field (encXR st op d a b fn) 3 7 = b ∧
    field (encXR st op d a b fn) 0 3 = fn := by
  unfold encXR field
  refine ⟨?_, ?_, ?_, ?_, ?_, ?_⟩ <;>
  repeat first
    | exact extract_all _
    | rw [extract_lo (h := by decide)]
    | rw [extract_hi (h := by decide)]

theorem fields_xi (st : BitVec 2) (op : BitVec 6) (d : BitVec 7) (a : BitVec 7) (imm : BitVec 10) :
    field (encXI st op d a imm) 30 2 = st ∧
    field (encXI st op d a imm) 24 6 = op ∧
    field (encXI st op d a imm) 17 7 = d ∧
    field (encXI st op d a imm) 10 7 = a ∧
    field (encXI st op d a imm) 0 10 = imm := by
  unfold encXI field
  refine ⟨?_, ?_, ?_, ?_, ?_⟩ <;>
  repeat first
    | exact extract_all _
    | rw [extract_lo (h := by decide)]
    | rw [extract_hi (h := by decide)]

theorem fields_xm (st : BitVec 2) (op : BitVec 6) (d : BitVec 7) (a : BitVec 7) (k : BitVec 3) (off : BitVec 7) :
    field (encXM st op d a k off) 30 2 = st ∧
    field (encXM st op d a k off) 24 6 = op ∧
    field (encXM st op d a k off) 17 7 = d ∧
    field (encXM st op d a k off) 10 7 = a ∧
    field (encXM st op d a k off) 7 3 = k ∧
    field (encXM st op d a k off) 0 7 = off := by
  unfold encXM field
  refine ⟨?_, ?_, ?_, ?_, ?_, ?_⟩ <;>
  repeat first
    | exact extract_all _
    | rw [extract_lo (h := by decide)]
    | rw [extract_hi (h := by decide)]

theorem fields_li (st : BitVec 2) (op : BitVec 6) (d : BitVec 7) (imm : BitVec 17) :
    field (encLI st op d imm) 30 2 = st ∧
    field (encLI st op d imm) 24 6 = op ∧
    field (encLI st op d imm) 17 7 = d ∧
    field (encLI st op d imm) 0 17 = imm := by
  unfold encLI field
  refine ⟨?_, ?_, ?_, ?_⟩ <;>
  repeat first
    | exact extract_all _
    | rw [extract_lo (h := by decide)]
    | rw [extract_hi (h := by decide)]

theorem fields_br (st : BitVec 2) (op : BitVec 6) (c : BitVec 3) (a : BitVec 7) (off : BitVec 14) :
    field (encBR st op c a off) 30 2 = st ∧
    field (encBR st op c a off) 24 6 = op ∧
    field (encBR st op c a off) 21 3 = c ∧
    field (encBR st op c a off) 14 7 = a ∧
    field (encBR st op c a off) 0 14 = off := by
  unfold encBR field
  refine ⟨?_, ?_, ?_, ?_, ?_⟩ <;>
  repeat first
    | exact extract_all _
    | rw [extract_lo (h := by decide)]
    | rw [extract_hi (h := by decide)]

theorem fields_vr (st : BitVec 2) (op : BitVec 6) (d : BitVec 5) (a : BitVec 5) (b : BitVec 5) (m : BitVec 3) (fn : BitVec 6) :
    field (encVR st op d a b m fn) 30 2 = st ∧
    field (encVR st op d a b m fn) 24 6 = op ∧
    field (encVR st op d a b m fn) 19 5 = d ∧
    field (encVR st op d a b m fn) 14 5 = a ∧
    field (encVR st op d a b m fn) 9 5 = b ∧
    field (encVR st op d a b m fn) 6 3 = m ∧
    field (encVR st op d a b m fn) 0 6 = fn := by
  unfold encVR field
  refine ⟨?_, ?_, ?_, ?_, ?_, ?_, ?_⟩ <;>
  repeat first
    | exact extract_all _
    | rw [extract_lo (h := by decide)]
    | rw [extract_hi (h := by decide)]

theorem fields_vs (st : BitVec 2) (op : BitVec 6) (d : BitVec 5) (a : BitVec 5) (b : BitVec 5) (x : BitVec 7) (fn : BitVec 2) :
    field (encVS st op d a b x fn) 30 2 = st ∧
    field (encVS st op d a b x fn) 24 6 = op ∧
    field (encVS st op d a b x fn) 19 5 = d ∧
    field (encVS st op d a b x fn) 14 5 = a ∧
    field (encVS st op d a b x fn) 9 5 = b ∧
    field (encVS st op d a b x fn) 2 7 = x ∧
    field (encVS st op d a b x fn) 0 2 = fn := by
  unfold encVS field
  refine ⟨?_, ?_, ?_, ?_, ?_, ?_, ?_⟩ <;>
  repeat first
    | exact extract_all _
    | rw [extract_lo (h := by decide)]
    | rw [extract_hi (h := by decide)]

theorem fields_vm (st : BitVec 2) (op : BitVec 6) (v : BitVec 5) (a : BitVec 7) (m : BitVec 3) (k : BitVec 3) (off : BitVec 6) :
    field (encVM st op v a m k off) 30 2 = st ∧
    field (encVM st op v a m k off) 24 6 = op ∧
    field (encVM st op v a m k off) 19 5 = v ∧
    field (encVM st op v a m k off) 12 7 = a ∧
    field (encVM st op v a m k off) 9 3 = m ∧
    field (encVM st op v a m k off) 6 3 = k ∧
    field (encVM st op v a m k off) 0 6 = off := by
  unfold encVM field
  refine ⟨?_, ?_, ?_, ?_, ?_, ?_, ?_⟩ <;>
  repeat first
    | exact extract_all _
    | rw [extract_lo (h := by decide)]
    | rw [extract_hi (h := by decide)]

theorem fields_vg (st : BitVec 2) (op : BitVec 6) (v : BitVec 5) (b : BitVec 5) (a : BitVec 7) (m : BitVec 3) (e : BitVec 2) (sc : BitVec 2) :
    field (encVG st op v b a m e sc) 30 2 = st ∧
    field (encVG st op v b a m e sc) 24 6 = op ∧
    field (encVG st op v b a m e sc) 19 5 = v ∧
    field (encVG st op v b a m e sc) 14 5 = b ∧
    field (encVG st op v b a m e sc) 7 7 = a ∧
    field (encVG st op v b a m e sc) 4 3 = m ∧
    field (encVG st op v b a m e sc) 2 2 = e ∧
    field (encVG st op v b a m e sc) 0 2 = sc := by
  unfold encVG field
  refine ⟨?_, ?_, ?_, ?_, ?_, ?_, ?_, ?_⟩ <;>
  repeat first
    | exact extract_all _
    | rw [extract_lo (h := by decide)]
    | rw [extract_hi (h := by decide)]

theorem fields_vx (st : BitVec 2) (op : BitVec 6) (v : BitVec 5) (x : BitVec 7) (e : BitVec 2) (lane : BitVec 6) (fn : BitVec 2) (ft : BitVec 2) :
    field (encVX st op v x e lane fn ft) 30 2 = st ∧
    field (encVX st op v x e lane fn ft) 24 6 = op ∧
    field (encVX st op v x e lane fn ft) 19 5 = v ∧
    field (encVX st op v x e lane fn ft) 12 7 = x ∧
    field (encVX st op v x e lane fn ft) 10 2 = e ∧
    field (encVX st op v x e lane fn ft) 4 6 = lane ∧
    field (encVX st op v x e lane fn ft) 2 2 = fn ∧
    field (encVX st op v x e lane fn ft) 0 2 = ft := by
  unfold encVX field
  refine ⟨?_, ?_, ?_, ?_, ?_, ?_, ?_, ?_⟩ <;>
  repeat first
    | exact extract_all _
    | rw [extract_lo (h := by decide)]
    | rw [extract_hi (h := by decide)]

/-! ### The option codes (R87 to R94) -/

@[simp] theorem ExtSize.ofCode_code (x : ExtSize) : ExtSize.ofCode x.code = some x := by cases x <;> rfl
@[simp] theorem Cond.ofCode_code (x : Cond) : Cond.ofCode x.code = x := by cases x <;> rfl
@[simp] theorem LdKind.ofCode_code (x : LdKind) : LdKind.ofCode x.code = some x := by cases x <;> rfl
@[simp] theorem StKind.ofCode_code (x : StKind) : StKind.ofCode x.code = some x := by cases x <;> rfl
@[simp] theorem LdsMode.ofCode_code (x : LdsMode) : LdsMode.ofCode x.code = some x := by cases x <;> rfl
@[simp] theorem StsMode.ofCode_code (x : StsMode) : StsMode.ofCode x.code = some x := by cases x <;> rfl
@[simp] theorem Scope.ofCode_code (x : Scope) : Scope.ofCode x.code = some x := by cases x <;> rfl
@[simp] theorem FenceKind.ofCode_code (x : FenceKind) : FenceKind.ofCode x.code = x := by cases x <;> rfl
@[simp] theorem CasSize.ofCode_code (x : CasSize) : CasSize.ofCode x.code = some x := by cases x <;> rfl
@[simp] theorem FPrec.ofCode_code (x : FPrec) : FPrec.ofCode x.code = x := by cases x <;> rfl
@[simp] theorem RoundSel.ofCode_code (x : RoundSel) : RoundSel.ofCode x.code = some x := by cases x <;> rfl
@[simp] theorem SgnOp.ofCode_code (x : SgnOp) : SgnOp.ofCode x.code = some x := by cases x <;> rfl
@[simp] theorem CvtFmt.ofCode_code (x : CvtFmt) : CvtFmt.ofCode x.code = x := by cases x <;> rfl
@[simp] theorem VIType.ofCode_code (x : VIType) : VIType.ofCode x.code = x := by cases x <;> rfl
@[simp] theorem VFType.ofCode_code (x : VFType) : VFType.ofCode x.code = x := by cases x <;> rfl
@[simp] theorem VPType.ofCode_code (x : VPType) : VPType.ofCode x.code = x := by cases x <;> rfl
@[simp] theorem FPred.ofCode_code (x : FPred) : FPred.ofCode x.code = x := by cases x <;> rfl
@[simp] theorem ESz.ofCode_code (x : ESz) : ESz.ofCode x.code = x := by cases x <;> rfl
@[simp] theorem GangSize.ofCode_code (x : GangSize) : GangSize.ofCode x.code = some x := by cases x <;> rfl
@[simp] theorem GangRole.ofCode_code (x : GangRole) : GangRole.ofCode x.code = x := by cases x <;> rfl
@[simp] theorem boolOf_boolCode (b : Bool) : boolOf (boolCode b) = b := by cases b <;> rfl
@[simp] theorem VPType.ofFt_ft (x : VPType) : VPType.ofFt x.ft x.esz = some x := by cases x <;> rfl

end Sys2Proof
end

