-- ==== Sys2Proof/Laws/Issue.lean ====
section
/-! SUPPORT. Issuing an instruction: what `issue` answers once the checks before issue pass, or one of them fails. -/

namespace Sys2Proof.Machine

/-! ### What issuing leaves of the thread as it was -/

variable (th : Thread) (now : Nat) (st : Stall) (o : Opnds)

@[simp] theorem Thread.getX_issued (r : XReg) : (th.issued now st o).getX r = th.getX r := rfl
@[simp] theorem Thread.getV_issued (r : VReg) : (th.issued now st o).getV r = th.getV r := rfl
@[simp] theorem Thread.getM_issued (r : MReg) : (th.issued now st o).getM r = th.getM r := rfl
@[simp] theorem Thread.getF_issued (r : MReg) : (th.issued now st o).getF r = th.getF r := rfl
@[simp] theorem Thread.id_issued : (th.issued now st o).id = th.id := rfl
@[simp] theorem Thread.asid_issued : (th.issued now st o).asid = th.asid := rfl
@[simp] theorem Thread.kernel_issued : (th.issued now st o).kernel = th.kernel := rfl
@[simp] theorem Thread.csr_issued : (th.issued now st o).csr = th.csr := rfl
@[simp] theorem Thread.gang_issued : (th.issued now st o).gang = th.gang := rfl
@[simp] theorem Thread.regions_issued : (th.issued now st o).regions = th.regions := rfl
@[simp] theorem Thread.depth_issued : (th.issued now st o).depth = th.depth := rfl
@[simp] theorem Thread.sbuf_issued : (th.issued now st o).sbuf = th.sbuf := rfl
@[simp] theorem Thread.insn_issued : (th.issued now st o).insn = th.pc := rfl
@[simp] theorem Thread.pc_issued : (th.issued now st o).pc = th.pc + 4 := rfl
@[simp] theorem Thread.fenv_issued : (th.issued now st o).fenv = th.fenv := rfl
@[simp] theorem Thread.enables_issued : (th.issued now st o).enables = th.enables := rfl
@[simp] theorem Thread.isFollower_issued : (th.issued now st o).isFollower = th.isFollower := rfl
@[simp] theorem Thread.returnTarget_issued : (th.issued now st o).returnTarget = th.returnTarget := rfl
@[simp] theorem Thread.pte_issued : (th.issued now st o).pte = th.pte := rfl
@[simp] theorem Thread.feLimit_issued : (th.issued now st o).feLimit = th.feLimit := rfl

theorem Thread.access_issued (ls : List Lane) (d : LoadDst) : (th.issued now st o).access ls d = th.access ls d := rfl
theorem recvOf_issued (c : Ctx) (a : W64) (w : List W64) : recvOf c (th.issued now st o) a w = recvOf c th a w := rfl

/-! ### The checks before issue -/

theorem stallFault_none_iff : stallFault th o = none ↔
    (th.csr.chk = true → ∀ r ∈ o.reads ++ o.writes, shortfall th r = 0) := by
  unfold stallFault
  by_cases h : th.csr.chk = true
  · rw [if_pos h, Option.map_eq_none_iff, List.find?_eq_none]
    simp only [h, true_implies, decide_eq_true_eq, Nat.not_lt, Nat.le_zero_eq]
  · simp [h]

variable {th now st o}

/-- The checks before issue all pass. -/
theorem Issues.issueFault {s : State} {t : Tid} {c : Ctx} {feat : Option Nat} (h : Issues s t th c feat o) :
    issueFault c th feat o = none := by
  have hf : feat.filter (fun f => !bit c.features f) = none := by
    cases feat with
    | none => rfl
    | some f => simp [h.feature f rfl]
  have hw : o.fields.findSome? (windowFault th) = none := List.findSome?_eq_none_iff.2 h.window
  have hs : stallFault th o = none := (stallFault_none_iff th o).2 h.stalls
  simp [Machine.issueFault, hf, hw, hs]

/-- What `issue` answers when no check stops the instruction: its own effect, or the precise trap that it takes. -/
theorem Issues.issue_eq {s : State} {t : Tid} {c : Ctx} {feat : Option Nat} (h : Issues s t th c feat o)
    (body : State → Thread → Effect) : issue s st feat o body =
      .next (match body (s.issuedBy th st o) (th.issued s.ticks st o) with
        | .ok s' => s'
        | .trap k v => s.trap t k v th.pc) := by
  unfold State.issuedBy
  cases hb : body (s.putThread (th.issued s.ticks st o)) (th.issued s.ticks st o) <;>
    simp only [issue, h.cur, h.thread, h.context, h.issueFault, hb]

/-- A fixed-latency instruction answers the state in which its writes are pending. -/
theorem Issues.fixedWrites_eq {s : State} {t : Tid} {c : Ctx} {feat : Option Nat} (h : Issues s t th c feat o)
    (f : Thread → List Dst) : fixedWrites s st feat o f = .next (s.wrote th st o (f (th.issued s.ticks st o))) := by
  unfold fixedWrites
  rw [h.issue_eq]
  rfl

/-- When a check before issue fails, the instruction takes that trap at its own address, from the state before it (R97). -/
theorem issue_of_fault {s : State} {t : Tid} {c : Ctx} {feat : Option Nat} {k : Cause} {v : W64} (hc : s.sched.cur = some t)
    (ht : s.thread? t = some th) (hx : s.ctx? th.asid = some c) (hf : issueFault c th feat o = some (k, v))
    (body : State → Thread → Effect) : issue s st feat o body = .next (s.trap t k v th.pc) := by
  simp only [issue, hc, ht, hx, hf]

/-- Everything that `issue` can answer. -/
theorem issue_cases (s : State) (st : Stall) (feat : Option Nat) (o : Opnds) (body : State → Thread → Effect) :
    (issue s st feat o body = .fault .noIssuingThread) ∨
    (∃ t th c, s.sched.cur = some t ∧ s.thread? t = some th ∧ s.ctx? th.asid = some c ∧
      ((∃ k v, issueFault c th feat o = some (k, v) ∧ issue s st feat o body = .next (s.trap t k v th.pc)) ∨
       (issueFault c th feat o = none ∧ ∃ s', body (s.issuedBy th st o) (th.issued s.ticks st o) = .ok s' ∧
          issue s st feat o body = .next s') ∨
       (issueFault c th feat o = none ∧ ∃ k v, body (s.issuedBy th st o) (th.issued s.ticks st o) = .trap k v ∧
          issue s st feat o body = .next (s.trap t k v th.pc)))) := by
  unfold State.issuedBy
  cases hc : s.sched.cur with
  | none => exact .inl (by simp only [issue, hc])
  | some t =>
    cases ht : s.thread? t with
    | none => exact .inl (by simp only [issue, hc, ht])
    | some th =>
      cases hx : s.ctx? th.asid with
      | none => exact .inl (by simp only [issue, hc, ht, hx])
      | some c =>
        refine .inr ⟨t, th, c, rfl, ht, hx, ?_⟩
        cases hf : issueFault c th feat o with
        | some p => exact .inl ⟨p.1, p.2, rfl, by simp only [issue, hc, ht, hx, hf]⟩
        | none =>
          cases hb : body (s.putThread (th.issued s.ticks st o)) (th.issued s.ticks st o) with
          | ok s' => exact .inr (.inl ⟨rfl, s', rfl, by simp only [issue, hc, ht, hx, hf, hb]⟩)
          | trap k v => exact .inr (.inr ⟨rfl, k, v, rfl, by simp only [issue, hc, ht, hx, hf, hb]⟩)

end Sys2Proof.Machine
end

