-- ==== Sys2Proof/Laws/Tab.lean ====
section
/-! SUPPORT. Laws of sparse tables: what a write leaves to be read, and that every table operation keeps the canonical
form. -/

namespace Sys2Proof.Machine

variable {α : Type}

theorem Tab.above_mono {a b : Nat} (h : a ≤ b) : ∀ {t : Tab α}, Tab.above b t = true → Tab.above a t = true
  | [], _ => rfl
  | (k, v) :: r, hb => by
    simp only [Tab.above, Bool.and_eq_true, decide_eq_true_eq] at hb ⊢
    exact ⟨by omega, hb.2⟩

/-- A key above every listed key is not listed. -/
theorem Tab.find?_of_above {n : Nat} : ∀ {b : Nat} {t : Tab α}, Tab.above b t = true → n ≤ b → t.find? n = none
  | _, [], _, _ => rfl
  | b, (k, v) :: r, h, hn => by
    simp only [Tab.above, Bool.and_eq_true, decide_eq_true_eq] at h
    have hk : k ≠ n := by omega
    simp only [Tab.find?, hk, if_false]
    exact Tab.find?_of_above h.2 (by omega)

theorem Tab.rising_of_above {b : Nat} : ∀ {t : Tab α}, Tab.above b t = true → t.rising = true
  | [], _ => rfl
  | (_, _) :: _, h => by
    simp only [Tab.above, Bool.and_eq_true] at h
    exact h.2

/-! ### What is read after a write -/

theorem Tab.find?_put (n m : Nat) (x : α) : ∀ t : Tab α, (t.put n x).find? m = if n = m then some x else t.find? m
  | [] => by simp [Tab.put, Tab.find?]
  | (k, v) :: r => by
    have ih := Tab.find?_put n m x r
    unfold Tab.put
    split
    · simp [Tab.find?]
    · split
      · next h => subst h; simp only [Tab.find?]; split <;> rfl
      · next h1 h2 =>
        simp only [Tab.find?, ih]
        split
        · next hk => subst hk; simp [h2]
        · rfl

@[simp] theorem Tab.find?_put_self (t : Tab α) (n : Nat) (x : α) : (t.put n x).find? n = some x := by simp [Tab.find?_put]

theorem Tab.put_put (n : Nat) (x y : α) : ∀ t : Tab α, (t.put n x).put n y = t.put n y
  | [] => by simp [Tab.put]
  | (k, v) :: r => by
    unfold Tab.put
    by_cases h1 : n < k
    · simp [h1, Tab.put]
    · by_cases h2 : n = k
      · simp [h2, Tab.put]
      · simp only [h1, h2, if_false, Tab.put, Tab.put_put n x y r]

theorem Tab.find?_put_ne (t : Tab α) {n m : Nat} (x : α) (h : n ≠ m) : (t.put n x).find? m = t.find? m := by
  simp [Tab.find?_put, h]

theorem Tab.find?_erase (n m : Nat) : ∀ t : Tab α, (t.erase n).find? m = if n = m then none else t.find? m
  | [] => by simp [Tab.erase, Tab.find?]
  | (k, v) :: r => by
    have ih := Tab.find?_erase n m r
    unfold Tab.erase
    split
    · next h =>
      subst h
      simp only [ih, Tab.find?]
      split <;> rfl
    · next h =>
      simp only [Tab.find?, ih]
      split
      · next hk =>
        have : n ≠ m := fun e => h (hk.trans e.symm)
        simp [this]
      · rfl

/-- A write of a table with a default is read back, and leaves every other key as it was. -/
theorem Tab.getD_setD [DecidableEq α] (t : Tab α) (n m : Nat) (x d : α) :
    (t.setD n x d).getD m d = if n = m then x else t.getD m d := by
  unfold Tab.setD Tab.getD
  split
  · next h => rw [Tab.find?_erase]; split <;> simp [h]
  · rw [Tab.find?_put]; split <;> simp

theorem Tab.find?_modify (t : Tab α) (n m : Nat) (f : α → α) :
    (t.modify n f).find? m = if n = m then (t.find? n).map f else t.find? m := by
  unfold Tab.modify
  split
  · next v h => rw [Tab.find?_put]; split <;> simp [h]
  · next h => split
              · next e => subst e; simp [h]
              · rfl

/-! ### The canonical form is kept -/

theorem Tab.above_put {b n : Nat} (x : α) (hn : b < n) : ∀ {t : Tab α}, Tab.above b t = true → Tab.above b (t.put n x) = true
  | [], _ => by simp [Tab.put, Tab.above, hn]
  | (k, v) :: r, h => by
    simp only [Tab.above, Bool.and_eq_true, decide_eq_true_eq] at h
    unfold Tab.put
    split
    · next hk => simp [Tab.above, hn, hk, h.2]
    · split
      · next _ hk => subst hk; simp [Tab.above, hn, h.2]
      · next h1 h2 =>
        simp only [Tab.above, Bool.and_eq_true, decide_eq_true_eq]
        exact ⟨h.1, Tab.above_put x (by omega) h.2⟩

theorem Tab.rising_put (n : Nat) (x : α) : ∀ {t : Tab α}, t.rising = true → (t.put n x).rising = true
  | [], _ => by simp [Tab.put, Tab.rising, Tab.above]
  | (k, v) :: r, h => by
    simp only [Tab.rising] at h
    unfold Tab.put
    split
    · next hk => simp [Tab.rising, Tab.above, hk, h]
    · split
      · next _ hk => subst hk; simpa [Tab.rising] using h
      · next h1 h2 => exact Tab.above_put x (by omega) h

theorem Tab.above_filter (p : Nat × α → Bool) : ∀ {b : Nat} {t : Tab α}, Tab.above b t = true → Tab.above b (t.filter p) = true
  | _, [], _ => rfl
  | b, (k, v) :: r, h => by
    simp only [Tab.above, Bool.and_eq_true, decide_eq_true_eq] at h
    rw [List.filter_cons]
    split
    · simp only [Tab.above, Bool.and_eq_true, decide_eq_true_eq]
      exact ⟨h.1, Tab.above_filter p h.2⟩
    · exact Tab.above_filter p (Tab.above_mono (by omega) h.2)

theorem Tab.rising_filter (p : Nat × α → Bool) : ∀ {t : Tab α}, t.rising = true → Tab.rising (t.filter p) = true
  | [], _ => rfl
  | (k, v) :: r, h => by
    simp only [Tab.rising] at h
    rw [List.filter_cons]
    split
    · exact Tab.above_filter p h
    · exact Tab.rising_of_above (Tab.above_filter p h)

theorem Tab.erase_eq_filter (n : Nat) : ∀ t : Tab α, t.erase n = t.filter (fun e => e.1 != n)
  | [] => rfl
  | (k, v) :: r => by
    unfold Tab.erase
    rw [List.filter_cons, Tab.erase_eq_filter n r]
    by_cases h : k = n <;> simp [h]

theorem Tab.rising_erase (n : Nat) {t : Tab α} (h : t.rising = true) : (t.erase n).rising = true := by
  rw [Tab.erase_eq_filter]; exact Tab.rising_filter _ h

theorem Tab.mem_put {n : Nat} {x : α} {e : Nat × α} : ∀ {t : Tab α}, e ∈ t.put n x → e = (n, x) ∨ e ∈ t
  | [], h => by simpa [Tab.put] using h
  | (k, v) :: r, h => by
    unfold Tab.put at h
    split at h
    · simpa using h
    · split at h
      · simp only [List.mem_cons] at h ⊢
        exact h.imp id Or.inr
      · simp only [List.mem_cons] at h ⊢
        rcases h with h | h
        · exact .inr (.inl h)
        · exact (Tab.mem_put h).imp id Or.inr

theorem Tab.wfD_filter [DecidableEq α] {t : Tab α} {d : α} (p : Nat × α → Bool) (h : t.wfD d = true) : Tab.wfD (t.filter p) d = true := by
  simp only [Tab.wfD, Bool.and_eq_true, List.all_eq_true] at h ⊢
  exact ⟨Tab.rising_filter p h.1, fun e he => h.2 e (List.mem_filter.1 he).1⟩

/-- A write of a table with a default keeps its canonical form. -/
theorem Tab.wfD_setD [DecidableEq α] {t : Tab α} {d : α} (n : Nat) (x : α) (h : t.wfD d = true) : (t.setD n x d).wfD d = true := by
  unfold Tab.setD
  split
  · rw [Tab.erase_eq_filter]; exact Tab.wfD_filter _ h
  · next hx =>
    simp only [Tab.wfD, Bool.and_eq_true, List.all_eq_true] at h ⊢
    refine ⟨Tab.rising_put n x h.1, fun e he => ?_⟩
    rcases Tab.mem_put he with rfl | he
    · simpa using hx
    · exact h.2 e he

theorem Tab.rising_setD [DecidableEq α] {t : Tab α} (n : Nat) (x d : α) (h : t.rising = true) : (t.setD n x d).rising = true := by
  unfold Tab.setD
  split
  · exact Tab.rising_erase n h
  · exact Tab.rising_put n x h

theorem Tab.rising_modify {t : Tab α} (n : Nat) (f : α → α) (h : t.rising = true) : (t.modify n f).rising = true := by
  unfold Tab.modify
  split
  · exact Tab.rising_put _ _ h
  · exact h

end Sys2Proof.Machine
end

