-- ==== Sys2Proof/Laws/Memory.lean ====
section
/-! SUPPORT. Laws of memory: every memory operation keeps the canonical form; what is read after a write (R34). -/

namespace Sys2Proof.Machine

/-! ### The canonical form -/

theorem Memory.wf_iff (m : Memory) : m.wf = true ↔
    Tab.wfD m.bytes (0 : Byte) = true ∧ Tab.wfD m.full false = true ∧ Tab.wfD m.poison false = true := by
  simp [Memory.wf, and_assoc]

theorem Memory.wf_setByte {m : Memory} (k : Nat) (b : Byte) (h : m.wf = true) : (m.setByte k b).wf = true := by
  rw [Memory.wf_iff] at h ⊢
  exact ⟨Tab.wfD_setD k b h.1, h.2⟩

theorem Memory.wf_setPoison {m : Memory} (k : Nat) (b : Bool) (h : m.wf = true) :
    Memory.wf { m with poison := m.poison.setD k b false } = true := by
  rw [Memory.wf_iff] at h ⊢
  exact ⟨h.1, h.2.1, Tab.wfD_setD k b h.2.2⟩

theorem Memory.wf_setFull {m : Memory} (k : Nat) (b : Bool) (h : m.wf = true) :
    Memory.wf { m with full := m.full.setD k b false } = true := by
  rw [Memory.wf_iff] at h ⊢
  exact ⟨h.1, Tab.wfD_setD k b h.2.1, h.2.2⟩

theorem Memory.wf_badCode {m : Memory} (l : List Nat) (h : m.wf = true) : Memory.wf { m with badCode := l } = true := h

/-- A fold keeps the canonical form when each of its steps does. -/
theorem Memory.wf_foldl {β : Type} (f : Memory → β → Memory) (hf : ∀ m x, m.wf = true → (f m x).wf = true) :
    ∀ (l : List β) (m : Memory), m.wf = true → (l.foldl f m).wf = true
  | [], _, h => h
  | x :: r, m, h => Memory.wf_foldl f hf r (f m x) (hf m x h)

theorem Memory.wf_unpoison {m : Memory} (c : Nat) (h : m.wf = true) : (m.unpoison c).wf = true := by
  unfold Memory.unpoison
  split
  · exact Memory.wf_foldl _ (fun m i hm => Memory.wf_setByte _ _ hm) _ _ (Memory.wf_setPoison c false h)
  · exact h

theorem Memory.wf_write {m : Memory} (k : Nat) (b : Byte) (h : m.wf = true) : (m.write k b).wf = true :=
  Memory.wf_setByte k b (Memory.wf_unpoison _ h)

theorem Memory.wf_writeN : ∀ (l : List Byte) {m : Memory} (k : Nat), m.wf = true → (m.writeN k l).wf = true
  | [], _, _, h => h
  | b :: r, _, k, h => Memory.wf_writeN r (k + 1) (Memory.wf_write k b h)

theorem Memory.wf_setWord {m : Memory} (k : Nat) (w : W64) (h : m.wf = true) : (m.setWord k w).wf = true :=
  Memory.wf_writeN _ _ h

theorem Memory.wf_strike {m : Memory} (c : Nat) (h : m.wf = true) : (m.strike c).wf = true :=
  Memory.wf_setFull (m := { m with poison := m.poison.setD c true false }) c false (Memory.wf_setPoison c true h)

theorem Memory.wf_writeP {m : Memory} (p : PLoc) (v : Byte) (h : m.wf = true) : (m.writeP p v).wf = true := by
  unfold Memory.writeP
  split
  · exact Memory.wf_write _ _ h
  · exact Memory.wf_foldl _ (fun m e hm => Memory.wf_write _ _ hm) _ _ h

theorem Memory.wf_writePs {m : Memory} (ps : List PLoc) (v : W64) (h : m.wf = true) : (m.writePs ps v).wf = true :=
  Memory.wf_foldl _ (fun _ _ hm => Memory.wf_writeP _ _ hm) _ _ h

theorem Memory.wf_writeEach {m : Memory} (l : List (PLoc × Byte)) (h : m.wf = true) :
    (l.foldl (fun m e => m.writeP e.1 e.2) m).wf = true :=
  Memory.wf_foldl _ (fun _ _ hm => Memory.wf_writeP _ _ hm) _ _ h

theorem Memory.wf_clearRange {m : Memory} (lo hi : Nat) (h : m.wf = true) : (m.clearRange lo hi).wf = true := by
  rw [Memory.wf_iff] at h ⊢
  exact ⟨Tab.wfD_filter _ h.1, Tab.wfD_filter _ h.2.1, Tab.wfD_filter _ h.2.2⟩

theorem Tab.wfD_foldl_setD {α : Type} [DecidableEq α] {d : α} : ∀ (l : List (Nat × α)) {t : Tab α}, t.wfD d = true →
    (l.foldl (fun (t : Tab α) (e : Nat × α) => t.setD e.1 e.2 d) t).wfD d = true
  | [], _, h => h
  | e :: r, _, h => Tab.wfD_foldl_setD r (Tab.wfD_setD e.1 e.2 h)

theorem Memory.wf_merge {m : Memory} (x : Memory) (h : m.wf = true) : (m.merge x).wf = true := by
  rw [Memory.wf_iff] at h ⊢
  exact ⟨Tab.wfD_foldl_setD _ h.1, Tab.wfD_foldl_setD _ h.2.1, Tab.wfD_foldl_setD _ h.2.2⟩

theorem State.reset_mem_wf : State.reset.mem.wf = true := by decide

/-! ### Reading after a write (R34) -/

theorem Memory.poisoned_setByte (m : Memory) (k : Nat) (b : Byte) (c : Nat) : (m.setByte k b).poisoned c = m.poisoned c := rfl

theorem Memory.byte_setByte (m : Memory) (k a : Nat) (b : Byte) :
    (m.setByte k b).byte a = if k = a then b else m.byte a := by
  unfold Memory.setByte Memory.byte
  exact Tab.getD_setD _ _ _ _ _

theorem Memory.poisoned_setBytes (m : Memory) (k : Nat) (c : Nat) : ∀ l : List Nat,
    (l.foldl (fun m i => m.setByte (k + i) 0) m).poisoned c = m.poisoned c := by
  intro l
  induction l generalizing m with
  | nil => rfl
  | cons x r ih => rw [List.foldl_cons, ih]; rfl

theorem Memory.byte_setBytes (k a : Nat) : ∀ (l : List Nat) (m : Memory),
    (l.foldl (fun m i => m.setByte (k + i) 0) m).byte a = if ∃ i ∈ l, k + i = a then 0 else m.byte a
  | [], m => by simp
  | x :: r, m => by
    rw [List.foldl_cons, Memory.byte_setBytes k a r]
    by_cases h : ∃ i ∈ r, k + i = a
    · obtain ⟨i, hi, e⟩ := h
      simp [show ∃ j ∈ r, k + j = a from ⟨i, hi, e⟩]
    · rw [if_neg h, Memory.byte_setByte]
      by_cases e : k + x = a
      · simp [e]
      · simp only [List.mem_cons, exists_eq_or_imp, e, h, or_self, if_false]

theorem Memory.poisoned_unpoison (m : Memory) (c d : Nat) :
    (m.unpoison c).poisoned d = if c = d then false else m.poisoned d := by
  unfold Memory.unpoison
  split
  · next h =>
    rw [Memory.poisoned_setBytes]
    exact Tab.getD_setD m.poison c d false false
  · next h =>
    split
    · next e => subst e; simpa using h
    · rfl

/-- Unpoisoning a cell changes no byte as it is read: its bytes read zero before and after (R34). -/
theorem Memory.read_unpoison (m : Memory) (c a : Nat) : (m.unpoison c).read a = m.read a := by
  unfold Memory.read
  rw [Memory.poisoned_unpoison]
  by_cases e : c = a / 8
  · subst e
    simp only [if_true, Bool.false_eq_true, if_false]
    unfold Memory.unpoison
    by_cases h : m.poisoned (a / 8) = true
    · rw [if_pos h, if_pos h, Memory.byte_setBytes, if_pos]
      exact ⟨a % 8, by simp; omega, by omega⟩
    · rw [if_neg h, if_neg h]
  · rw [if_neg e]
    have hn : ¬∃ i ∈ List.range 8, c * 8 + i = a := by
      intro hx
      obtain ⟨i, hi, hia⟩ := hx
      rw [List.mem_range] at hi
      omega
    unfold Memory.unpoison
    by_cases h : m.poisoned c = true
    · rw [if_pos h, Memory.byte_setBytes, if_neg hn]
      rfl
    · rw [if_neg h]

/-- A written byte is read back, and every other byte reads as before (R34). -/
theorem Memory.read_write (m : Memory) (k a : Nat) (b : Byte) : (m.write k b).read a = if k = a then b else m.read a := by
  rw [← Memory.read_unpoison m (k / 8) a]
  unfold Memory.read Memory.write
  rw [Memory.poisoned_setByte, Memory.byte_setByte]
  by_cases e : k = a
  · subst e
    simp [Memory.poisoned_unpoison]
  · simp [e]

theorem Memory.read_writeN_outside : ∀ (l : List Byte) (m : Memory) (k a : Nat), (a < k ∨ k + l.length ≤ a) →
    (m.writeN k l).read a = m.read a
  | [], _, _, _, _ => rfl
  | b :: r, m, k, a, h => by
    simp only [List.length_cons] at h
    unfold Memory.writeN
    rw [Memory.read_writeN_outside r _ (k + 1) a (by omega), Memory.read_write, if_neg (by omega)]

theorem Memory.read_writeN_inside : ∀ (l : List Byte) (m : Memory) (k i : Nat) (h : i < l.length),
    (m.writeN k l).read (k + i) = l[i]
  | b :: r, m, k, 0, _ => by
    unfold Memory.writeN
    rw [Memory.read_writeN_outside r _ (k + 1) (k + 0) (by omega), Memory.read_write]
    simp
  | b :: r, m, k, i + 1, h => by
    unfold Memory.writeN
    have := Memory.read_writeN_inside r (m.write k b) (k + 1) i (by simpa using h)
    rw [show k + (i + 1) = k + 1 + i by omega, this]
    simp

end Sys2Proof.Machine
end

