-- ==== Sys2Proof/Laws/Net.lean ====
section
/-! SUPPORT. What a packet that sets out leaves as it was: everything but the network, the schedule, the free values and the numbers given
out (spec 22 R398 to R402). -/

namespace Sys2Proof.Machine

variable (s : State)

/-! ### drawFor -/

@[simp] theorem State.drawFor_ticks (k : Option Nat) (t b n : Nat) : (s.drawFor k t b n).2.ticks = s.ticks := by unfold State.drawFor; split <;> rfl
@[simp] theorem State.drawFor_swm (k : Option Nat) (t b n : Nat) : (s.drawFor k t b n).2.swm = s.swm := by unfold State.drawFor; split <;> rfl
@[simp] theorem State.drawFor_swmSample (k : Option Nat) (t b n : Nat) : (s.drawFor k t b n).2.swmSample = s.swmSample := by unfold State.drawFor; split <;> rfl
@[simp] theorem State.drawFor_mem (k : Option Nat) (t b n : Nat) : (s.drawFor k t b n).2.mem = s.mem := by unfold State.drawFor; split <;> rfl
@[simp] theorem State.drawFor_threads (k : Option Nat) (t b n : Nat) : (s.drawFor k t b n).2.threads = s.threads := by unfold State.drawFor; split <;> rfl
@[simp] theorem State.drawFor_cores (k : Option Nat) (t b n : Nat) : (s.drawFor k t b n).2.cores = s.cores := by unfold State.drawFor; split <;> rfl
@[simp] theorem State.drawFor_rows (k : Option Nat) (t b n : Nat) : (s.drawFor k t b n).2.rows = s.rows := by unfold State.drawFor; split <;> rfl
@[simp] theorem State.drawFor_ctxs (k : Option Nat) (t b n : Nat) : (s.drawFor k t b n).2.ctxs = s.ctxs := by unfold State.drawFor; split <;> rfl
@[simp] theorem State.drawFor_kernels (k : Option Nat) (t b n : Nat) : (s.drawFor k t b n).2.kernels = s.kernels := by unfold State.drawFor; split <;> rfl
@[simp] theorem State.drawFor_queues (k : Option Nat) (t b n : Nat) : (s.drawFor k t b n).2.queues = s.queues := by unfold State.drawFor; split <;> rfl
@[simp] theorem State.drawFor_pkg (k : Option Nat) (t b n : Nat) : (s.drawFor k t b n).2.pkg = s.pkg := by unfold State.drawFor; split <;> rfl
@[simp] theorem State.drawFor_qp (k : Option Nat) (t b n : Nat) : (s.drawFor k t b n).2.qp = s.qp := by unfold State.drawFor; split <;> rfl
@[simp] theorem State.drawFor_quarantine (k : Option Nat) (t b n : Nat) : (s.drawFor k t b n).2.quarantine = s.quarantine := by unfold State.drawFor; split <;> rfl
@[simp] theorem State.drawFor_ni (k : Option Nat) (t b n : Nat) : (s.drawFor k t b n).2.ni = s.ni := by unfold State.drawFor; split <;> rfl
@[simp] theorem State.drawFor_rxe (k : Option Nat) (t b n : Nat) : (s.drawFor k t b n).2.rxe = s.rxe := by unfold State.drawFor; split <;> rfl
@[simp] theorem State.drawFor_copies (k : Option Nat) (t b n : Nat) : (s.drawFor k t b n).2.copies = s.copies := by unfold State.drawFor; split <;> rfl
@[simp] theorem State.drawFor_turns (k : Option Nat) (t b n : Nat) : (s.drawFor k t b n).2.turns = s.turns := by unfold State.drawFor; split <;> rfl
@[simp] theorem State.drawFor_det (k : Option Nat) (t b n : Nat) : (s.drawFor k t b n).2.det = s.det := by unfold State.drawFor; split <;> rfl
@[simp] theorem State.drawFor_detLast (k : Option Nat) (t b n : Nat) : (s.drawFor k t b n).2.detLast = s.detLast := by unfold State.drawFor; split <;> rfl
@[simp] theorem State.drawFor_waits (k : Option Nat) (t b n : Nat) : (s.drawFor k t b n).2.waits = s.waits := by unfold State.drawFor; split <;> rfl
@[simp] theorem State.drawFor_ebb (k : Option Nat) (t b n : Nat) : (s.drawFor k t b n).2.ebb = s.ebb := by unfold State.drawFor; split <;> rfl
@[simp] theorem State.drawFor_fabric (k : Option Nat) (t b n : Nat) : (s.drawFor k t b n).2.fabric = s.fabric := by unfold State.drawFor; split <;> rfl
@[simp] theorem State.drawFor_host (k : Option Nat) (t b n : Nat) : (s.drawFor k t b n).2.host = s.host := by unfold State.drawFor; split <;> rfl

/-! ### promote -/

@[simp] theorem State.promote_ticks (f : Nat) : (s.promote f).ticks = s.ticks := rfl
@[simp] theorem State.promote_swm (f : Nat) : (s.promote f).swm = s.swm := rfl
@[simp] theorem State.promote_swmSample (f : Nat) : (s.promote f).swmSample = s.swmSample := rfl
@[simp] theorem State.promote_mem (f : Nat) : (s.promote f).mem = s.mem := rfl
@[simp] theorem State.promote_threads (f : Nat) : (s.promote f).threads = s.threads := rfl
@[simp] theorem State.promote_cores (f : Nat) : (s.promote f).cores = s.cores := rfl
@[simp] theorem State.promote_rows (f : Nat) : (s.promote f).rows = s.rows := rfl
@[simp] theorem State.promote_ctxs (f : Nat) : (s.promote f).ctxs = s.ctxs := rfl
@[simp] theorem State.promote_kernels (f : Nat) : (s.promote f).kernels = s.kernels := rfl
@[simp] theorem State.promote_queues (f : Nat) : (s.promote f).queues = s.queues := rfl
@[simp] theorem State.promote_pkg (f : Nat) : (s.promote f).pkg = s.pkg := rfl
@[simp] theorem State.promote_qp (f : Nat) : (s.promote f).qp = s.qp := rfl
@[simp] theorem State.promote_quarantine (f : Nat) : (s.promote f).quarantine = s.quarantine := rfl
@[simp] theorem State.promote_ni (f : Nat) : (s.promote f).ni = s.ni := rfl
@[simp] theorem State.promote_rxe (f : Nat) : (s.promote f).rxe = s.rxe := rfl
@[simp] theorem State.promote_copies (f : Nat) : (s.promote f).copies = s.copies := rfl
@[simp] theorem State.promote_turns (f : Nat) : (s.promote f).turns = s.turns := rfl
@[simp] theorem State.promote_det (f : Nat) : (s.promote f).det = s.det := rfl
@[simp] theorem State.promote_detLast (f : Nat) : (s.promote f).detLast = s.detLast := rfl
@[simp] theorem State.promote_waits (f : Nat) : (s.promote f).waits = s.waits := rfl
@[simp] theorem State.promote_ebb (f : Nat) : (s.promote f).ebb = s.ebb := rfl
@[simp] theorem State.promote_fabric (f : Nat) : (s.promote f).fabric = s.fabric := rfl
@[simp] theorem State.promote_host (f : Nat) : (s.promote f).host = s.host := rfl

/-! ### netSend -/

@[simp] theorem State.netSend_ticks (src dst flow : Nat) (b : Bool) (k : Option Nat) (n w l tl r : Nat) (st : Bool) (e : Instr) : (s.netSend src dst flow b k n w l tl r st e).ticks = s.ticks := rfl
@[simp] theorem State.netSend_swm (src dst flow : Nat) (b : Bool) (k : Option Nat) (n w l tl r : Nat) (st : Bool) (e : Instr) : (s.netSend src dst flow b k n w l tl r st e).swm = s.swm := rfl
@[simp] theorem State.netSend_swmSample (src dst flow : Nat) (b : Bool) (k : Option Nat) (n w l tl r : Nat) (st : Bool) (e : Instr) : (s.netSend src dst flow b k n w l tl r st e).swmSample = s.swmSample := rfl
@[simp] theorem State.netSend_mem (src dst flow : Nat) (b : Bool) (k : Option Nat) (n w l tl r : Nat) (st : Bool) (e : Instr) : (s.netSend src dst flow b k n w l tl r st e).mem = s.mem := rfl
@[simp] theorem State.netSend_threads (src dst flow : Nat) (b : Bool) (k : Option Nat) (n w l tl r : Nat) (st : Bool) (e : Instr) : (s.netSend src dst flow b k n w l tl r st e).threads = s.threads := rfl
@[simp] theorem State.netSend_cores (src dst flow : Nat) (b : Bool) (k : Option Nat) (n w l tl r : Nat) (st : Bool) (e : Instr) : (s.netSend src dst flow b k n w l tl r st e).cores = s.cores := rfl
@[simp] theorem State.netSend_rows (src dst flow : Nat) (b : Bool) (k : Option Nat) (n w l tl r : Nat) (st : Bool) (e : Instr) : (s.netSend src dst flow b k n w l tl r st e).rows = s.rows := rfl
@[simp] theorem State.netSend_ctxs (src dst flow : Nat) (b : Bool) (k : Option Nat) (n w l tl r : Nat) (st : Bool) (e : Instr) : (s.netSend src dst flow b k n w l tl r st e).ctxs = s.ctxs := rfl
@[simp] theorem State.netSend_kernels (src dst flow : Nat) (b : Bool) (k : Option Nat) (n w l tl r : Nat) (st : Bool) (e : Instr) : (s.netSend src dst flow b k n w l tl r st e).kernels = s.kernels := rfl
@[simp] theorem State.netSend_queues (src dst flow : Nat) (b : Bool) (k : Option Nat) (n w l tl r : Nat) (st : Bool) (e : Instr) : (s.netSend src dst flow b k n w l tl r st e).queues = s.queues := rfl
@[simp] theorem State.netSend_pkg (src dst flow : Nat) (b : Bool) (k : Option Nat) (n w l tl r : Nat) (st : Bool) (e : Instr) : (s.netSend src dst flow b k n w l tl r st e).pkg = s.pkg := rfl
@[simp] theorem State.netSend_qp (src dst flow : Nat) (b : Bool) (k : Option Nat) (n w l tl r : Nat) (st : Bool) (e : Instr) : (s.netSend src dst flow b k n w l tl r st e).qp = s.qp := rfl
@[simp] theorem State.netSend_quarantine (src dst flow : Nat) (b : Bool) (k : Option Nat) (n w l tl r : Nat) (st : Bool) (e : Instr) : (s.netSend src dst flow b k n w l tl r st e).quarantine = s.quarantine := rfl
@[simp] theorem State.netSend_ni (src dst flow : Nat) (b : Bool) (k : Option Nat) (n w l tl r : Nat) (st : Bool) (e : Instr) : (s.netSend src dst flow b k n w l tl r st e).ni = s.ni := rfl
@[simp] theorem State.netSend_rxe (src dst flow : Nat) (b : Bool) (k : Option Nat) (n w l tl r : Nat) (st : Bool) (e : Instr) : (s.netSend src dst flow b k n w l tl r st e).rxe = s.rxe := rfl
@[simp] theorem State.netSend_copies (src dst flow : Nat) (b : Bool) (k : Option Nat) (n w l tl r : Nat) (st : Bool) (e : Instr) : (s.netSend src dst flow b k n w l tl r st e).copies = s.copies := rfl
@[simp] theorem State.netSend_turns (src dst flow : Nat) (b : Bool) (k : Option Nat) (n w l tl r : Nat) (st : Bool) (e : Instr) : (s.netSend src dst flow b k n w l tl r st e).turns = s.turns := rfl
@[simp] theorem State.netSend_det (src dst flow : Nat) (b : Bool) (k : Option Nat) (n w l tl r : Nat) (st : Bool) (e : Instr) : (s.netSend src dst flow b k n w l tl r st e).det = s.det := rfl
@[simp] theorem State.netSend_detLast (src dst flow : Nat) (b : Bool) (k : Option Nat) (n w l tl r : Nat) (st : Bool) (e : Instr) : (s.netSend src dst flow b k n w l tl r st e).detLast = s.detLast := rfl
@[simp] theorem State.netSend_waits (src dst flow : Nat) (b : Bool) (k : Option Nat) (n w l tl r : Nat) (st : Bool) (e : Instr) : (s.netSend src dst flow b k n w l tl r st e).waits = s.waits := rfl
@[simp] theorem State.netSend_ebb (src dst flow : Nat) (b : Bool) (k : Option Nat) (n w l tl r : Nat) (st : Bool) (e : Instr) : (s.netSend src dst flow b k n w l tl r st e).ebb = s.ebb := rfl
@[simp] theorem State.netSend_fabric (src dst flow : Nat) (b : Bool) (k : Option Nat) (n w l tl r : Nat) (st : Bool) (e : Instr) : (s.netSend src dst flow b k n w l tl r st e).fabric = s.fabric := rfl
@[simp] theorem State.netSend_host (src dst flow : Nat) (b : Bool) (k : Option Nat) (n w l tl r : Nat) (st : Bool) (e : Instr) : (s.netSend src dst flow b k n w l tl r st e).host = s.host := rfl

/-! ### portPacket -/

@[simp] theorem State.portPacket_ticks (src dst : Nat) (b : Bool) (k : Option Nat) (n w tl r : Nat) (st : Bool) (o : PortOp) : (s.portPacket src dst b k n w tl r st o).ticks = s.ticks := by unfold State.portPacket; split <;> simp
@[simp] theorem State.portPacket_swm (src dst : Nat) (b : Bool) (k : Option Nat) (n w tl r : Nat) (st : Bool) (o : PortOp) : (s.portPacket src dst b k n w tl r st o).swm = s.swm := by unfold State.portPacket; split <;> simp
@[simp] theorem State.portPacket_swmSample (src dst : Nat) (b : Bool) (k : Option Nat) (n w tl r : Nat) (st : Bool) (o : PortOp) : (s.portPacket src dst b k n w tl r st o).swmSample = s.swmSample := by unfold State.portPacket; split <;> simp
@[simp] theorem State.portPacket_mem (src dst : Nat) (b : Bool) (k : Option Nat) (n w tl r : Nat) (st : Bool) (o : PortOp) : (s.portPacket src dst b k n w tl r st o).mem = s.mem := by unfold State.portPacket; split <;> simp
@[simp] theorem State.portPacket_threads (src dst : Nat) (b : Bool) (k : Option Nat) (n w tl r : Nat) (st : Bool) (o : PortOp) : (s.portPacket src dst b k n w tl r st o).threads = s.threads := by unfold State.portPacket; split <;> simp
@[simp] theorem State.portPacket_cores (src dst : Nat) (b : Bool) (k : Option Nat) (n w tl r : Nat) (st : Bool) (o : PortOp) : (s.portPacket src dst b k n w tl r st o).cores = s.cores := by unfold State.portPacket; split <;> simp
@[simp] theorem State.portPacket_rows (src dst : Nat) (b : Bool) (k : Option Nat) (n w tl r : Nat) (st : Bool) (o : PortOp) : (s.portPacket src dst b k n w tl r st o).rows = s.rows := by unfold State.portPacket; split <;> simp
@[simp] theorem State.portPacket_ctxs (src dst : Nat) (b : Bool) (k : Option Nat) (n w tl r : Nat) (st : Bool) (o : PortOp) : (s.portPacket src dst b k n w tl r st o).ctxs = s.ctxs := by unfold State.portPacket; split <;> simp
@[simp] theorem State.portPacket_kernels (src dst : Nat) (b : Bool) (k : Option Nat) (n w tl r : Nat) (st : Bool) (o : PortOp) : (s.portPacket src dst b k n w tl r st o).kernels = s.kernels := by unfold State.portPacket; split <;> simp
@[simp] theorem State.portPacket_queues (src dst : Nat) (b : Bool) (k : Option Nat) (n w tl r : Nat) (st : Bool) (o : PortOp) : (s.portPacket src dst b k n w tl r st o).queues = s.queues := by unfold State.portPacket; split <;> simp
@[simp] theorem State.portPacket_pkg (src dst : Nat) (b : Bool) (k : Option Nat) (n w tl r : Nat) (st : Bool) (o : PortOp) : (s.portPacket src dst b k n w tl r st o).pkg = s.pkg := by unfold State.portPacket; split <;> simp
@[simp] theorem State.portPacket_qp (src dst : Nat) (b : Bool) (k : Option Nat) (n w tl r : Nat) (st : Bool) (o : PortOp) : (s.portPacket src dst b k n w tl r st o).qp = s.qp := by unfold State.portPacket; split <;> simp
@[simp] theorem State.portPacket_quarantine (src dst : Nat) (b : Bool) (k : Option Nat) (n w tl r : Nat) (st : Bool) (o : PortOp) : (s.portPacket src dst b k n w tl r st o).quarantine = s.quarantine := by unfold State.portPacket; split <;> simp
@[simp] theorem State.portPacket_ni (src dst : Nat) (b : Bool) (k : Option Nat) (n w tl r : Nat) (st : Bool) (o : PortOp) : (s.portPacket src dst b k n w tl r st o).ni = s.ni := by unfold State.portPacket; split <;> simp
@[simp] theorem State.portPacket_rxe (src dst : Nat) (b : Bool) (k : Option Nat) (n w tl r : Nat) (st : Bool) (o : PortOp) : (s.portPacket src dst b k n w tl r st o).rxe = s.rxe := by unfold State.portPacket; split <;> simp
@[simp] theorem State.portPacket_copies (src dst : Nat) (b : Bool) (k : Option Nat) (n w tl r : Nat) (st : Bool) (o : PortOp) : (s.portPacket src dst b k n w tl r st o).copies = s.copies := by unfold State.portPacket; split <;> simp
@[simp] theorem State.portPacket_turns (src dst : Nat) (b : Bool) (k : Option Nat) (n w tl r : Nat) (st : Bool) (o : PortOp) : (s.portPacket src dst b k n w tl r st o).turns = s.turns := by unfold State.portPacket; split <;> simp
@[simp] theorem State.portPacket_det (src dst : Nat) (b : Bool) (k : Option Nat) (n w tl r : Nat) (st : Bool) (o : PortOp) : (s.portPacket src dst b k n w tl r st o).det = s.det := by unfold State.portPacket; split <;> simp
@[simp] theorem State.portPacket_detLast (src dst : Nat) (b : Bool) (k : Option Nat) (n w tl r : Nat) (st : Bool) (o : PortOp) : (s.portPacket src dst b k n w tl r st o).detLast = s.detLast := by unfold State.portPacket; split <;> simp
@[simp] theorem State.portPacket_waits (src dst : Nat) (b : Bool) (k : Option Nat) (n w tl r : Nat) (st : Bool) (o : PortOp) : (s.portPacket src dst b k n w tl r st o).waits = s.waits := by unfold State.portPacket; split <;> simp
@[simp] theorem State.portPacket_ebb (src dst : Nat) (b : Bool) (k : Option Nat) (n w tl r : Nat) (st : Bool) (o : PortOp) : (s.portPacket src dst b k n w tl r st o).ebb = s.ebb := by unfold State.portPacket; split <;> simp
@[simp] theorem State.portPacket_fabric (src dst : Nat) (b : Bool) (k : Option Nat) (n w tl r : Nat) (st : Bool) (o : PortOp) : (s.portPacket src dst b k n w tl r st o).fabric = s.fabric := by unfold State.portPacket; split <;> simp
@[simp] theorem State.portPacket_host (src dst : Nat) (b : Bool) (k : Option Nat) (n w tl r : Nat) (st : Bool) (o : PortOp) : (s.portPacket src dst b k n w tl r st o).host = s.host := by unfold State.portPacket; split <;> simp

/-! ### packet -/

@[simp] theorem State.packet_ticks (th : Thread) (p : Nat) (b : Bool) (n tl : Nat) (o : PortOp) : (s.packet th p b n tl o).ticks = s.ticks := by simp [State.packet]
@[simp] theorem State.packet_swm (th : Thread) (p : Nat) (b : Bool) (n tl : Nat) (o : PortOp) : (s.packet th p b n tl o).swm = s.swm := by simp [State.packet]
@[simp] theorem State.packet_swmSample (th : Thread) (p : Nat) (b : Bool) (n tl : Nat) (o : PortOp) : (s.packet th p b n tl o).swmSample = s.swmSample := by simp [State.packet]
@[simp] theorem State.packet_mem (th : Thread) (p : Nat) (b : Bool) (n tl : Nat) (o : PortOp) : (s.packet th p b n tl o).mem = s.mem := by simp [State.packet]
@[simp] theorem State.packet_threads (th : Thread) (p : Nat) (b : Bool) (n tl : Nat) (o : PortOp) : (s.packet th p b n tl o).threads = s.threads := by simp [State.packet]
@[simp] theorem State.packet_cores (th : Thread) (p : Nat) (b : Bool) (n tl : Nat) (o : PortOp) : (s.packet th p b n tl o).cores = s.cores := by simp [State.packet]
@[simp] theorem State.packet_rows (th : Thread) (p : Nat) (b : Bool) (n tl : Nat) (o : PortOp) : (s.packet th p b n tl o).rows = s.rows := by simp [State.packet]
@[simp] theorem State.packet_ctxs (th : Thread) (p : Nat) (b : Bool) (n tl : Nat) (o : PortOp) : (s.packet th p b n tl o).ctxs = s.ctxs := by simp [State.packet]
@[simp] theorem State.packet_kernels (th : Thread) (p : Nat) (b : Bool) (n tl : Nat) (o : PortOp) : (s.packet th p b n tl o).kernels = s.kernels := by simp [State.packet]
@[simp] theorem State.packet_queues (th : Thread) (p : Nat) (b : Bool) (n tl : Nat) (o : PortOp) : (s.packet th p b n tl o).queues = s.queues := by simp [State.packet]
@[simp] theorem State.packet_pkg (th : Thread) (p : Nat) (b : Bool) (n tl : Nat) (o : PortOp) : (s.packet th p b n tl o).pkg = s.pkg := by simp [State.packet]
@[simp] theorem State.packet_qp (th : Thread) (p : Nat) (b : Bool) (n tl : Nat) (o : PortOp) : (s.packet th p b n tl o).qp = s.qp := by simp [State.packet]
@[simp] theorem State.packet_quarantine (th : Thread) (p : Nat) (b : Bool) (n tl : Nat) (o : PortOp) : (s.packet th p b n tl o).quarantine = s.quarantine := by simp [State.packet]
@[simp] theorem State.packet_ni (th : Thread) (p : Nat) (b : Bool) (n tl : Nat) (o : PortOp) : (s.packet th p b n tl o).ni = s.ni := by simp [State.packet]
@[simp] theorem State.packet_rxe (th : Thread) (p : Nat) (b : Bool) (n tl : Nat) (o : PortOp) : (s.packet th p b n tl o).rxe = s.rxe := by simp [State.packet]
@[simp] theorem State.packet_copies (th : Thread) (p : Nat) (b : Bool) (n tl : Nat) (o : PortOp) : (s.packet th p b n tl o).copies = s.copies := by simp [State.packet]
@[simp] theorem State.packet_turns (th : Thread) (p : Nat) (b : Bool) (n tl : Nat) (o : PortOp) : (s.packet th p b n tl o).turns = s.turns := by simp [State.packet]
@[simp] theorem State.packet_det (th : Thread) (p : Nat) (b : Bool) (n tl : Nat) (o : PortOp) : (s.packet th p b n tl o).det = s.det := by simp [State.packet]
@[simp] theorem State.packet_detLast (th : Thread) (p : Nat) (b : Bool) (n tl : Nat) (o : PortOp) : (s.packet th p b n tl o).detLast = s.detLast := by simp [State.packet]
@[simp] theorem State.packet_waits (th : Thread) (p : Nat) (b : Bool) (n tl : Nat) (o : PortOp) : (s.packet th p b n tl o).waits = s.waits := by simp [State.packet]
@[simp] theorem State.packet_ebb (th : Thread) (p : Nat) (b : Bool) (n tl : Nat) (o : PortOp) : (s.packet th p b n tl o).ebb = s.ebb := by simp [State.packet]
@[simp] theorem State.packet_fabric (th : Thread) (p : Nat) (b : Bool) (n tl : Nat) (o : PortOp) : (s.packet th p b n tl o).fabric = s.fabric := by simp [State.packet]
@[simp] theorem State.packet_host (th : Thread) (p : Nat) (b : Bool) (n tl : Nat) (o : PortOp) : (s.packet th p b n tl o).host = s.host := by simp [State.packet]

/-! ### sendBack -/

@[simp] theorem State.sendBack_ticks (th : Thread) (p : Nat) (b : Bool) (n since : Nat) (o : PortOp) : (s.sendBack th p b n since o).ticks = s.ticks := by unfold State.sendBack; split <;> simp [State.thDraw]
@[simp] theorem State.sendBack_swm (th : Thread) (p : Nat) (b : Bool) (n since : Nat) (o : PortOp) : (s.sendBack th p b n since o).swm = s.swm := by unfold State.sendBack; split <;> simp [State.thDraw]
@[simp] theorem State.sendBack_swmSample (th : Thread) (p : Nat) (b : Bool) (n since : Nat) (o : PortOp) : (s.sendBack th p b n since o).swmSample = s.swmSample := by unfold State.sendBack; split <;> simp [State.thDraw]
@[simp] theorem State.sendBack_mem (th : Thread) (p : Nat) (b : Bool) (n since : Nat) (o : PortOp) : (s.sendBack th p b n since o).mem = s.mem := by unfold State.sendBack; split <;> simp [State.thDraw]
@[simp] theorem State.sendBack_threads (th : Thread) (p : Nat) (b : Bool) (n since : Nat) (o : PortOp) : (s.sendBack th p b n since o).threads = s.threads := by unfold State.sendBack; split <;> simp [State.thDraw]
@[simp] theorem State.sendBack_cores (th : Thread) (p : Nat) (b : Bool) (n since : Nat) (o : PortOp) : (s.sendBack th p b n since o).cores = s.cores := by unfold State.sendBack; split <;> simp [State.thDraw]
@[simp] theorem State.sendBack_rows (th : Thread) (p : Nat) (b : Bool) (n since : Nat) (o : PortOp) : (s.sendBack th p b n since o).rows = s.rows := by unfold State.sendBack; split <;> simp [State.thDraw]
@[simp] theorem State.sendBack_ctxs (th : Thread) (p : Nat) (b : Bool) (n since : Nat) (o : PortOp) : (s.sendBack th p b n since o).ctxs = s.ctxs := by unfold State.sendBack; split <;> simp [State.thDraw]
@[simp] theorem State.sendBack_kernels (th : Thread) (p : Nat) (b : Bool) (n since : Nat) (o : PortOp) : (s.sendBack th p b n since o).kernels = s.kernels := by unfold State.sendBack; split <;> simp [State.thDraw]
@[simp] theorem State.sendBack_queues (th : Thread) (p : Nat) (b : Bool) (n since : Nat) (o : PortOp) : (s.sendBack th p b n since o).queues = s.queues := by unfold State.sendBack; split <;> simp [State.thDraw]
@[simp] theorem State.sendBack_pkg (th : Thread) (p : Nat) (b : Bool) (n since : Nat) (o : PortOp) : (s.sendBack th p b n since o).pkg = s.pkg := by unfold State.sendBack; split <;> simp [State.thDraw]
@[simp] theorem State.sendBack_qp (th : Thread) (p : Nat) (b : Bool) (n since : Nat) (o : PortOp) : (s.sendBack th p b n since o).qp = s.qp := by unfold State.sendBack; split <;> simp [State.thDraw]
@[simp] theorem State.sendBack_quarantine (th : Thread) (p : Nat) (b : Bool) (n since : Nat) (o : PortOp) : (s.sendBack th p b n since o).quarantine = s.quarantine := by unfold State.sendBack; split <;> simp [State.thDraw]
@[simp] theorem State.sendBack_ni (th : Thread) (p : Nat) (b : Bool) (n since : Nat) (o : PortOp) : (s.sendBack th p b n since o).ni = s.ni := by unfold State.sendBack; split <;> simp [State.thDraw]
@[simp] theorem State.sendBack_rxe (th : Thread) (p : Nat) (b : Bool) (n since : Nat) (o : PortOp) : (s.sendBack th p b n since o).rxe = s.rxe := by unfold State.sendBack; split <;> simp [State.thDraw]
@[simp] theorem State.sendBack_copies (th : Thread) (p : Nat) (b : Bool) (n since : Nat) (o : PortOp) : (s.sendBack th p b n since o).copies = s.copies := by unfold State.sendBack; split <;> simp [State.thDraw]
@[simp] theorem State.sendBack_turns (th : Thread) (p : Nat) (b : Bool) (n since : Nat) (o : PortOp) : (s.sendBack th p b n since o).turns = s.turns := by unfold State.sendBack; split <;> simp [State.thDraw]
@[simp] theorem State.sendBack_det (th : Thread) (p : Nat) (b : Bool) (n since : Nat) (o : PortOp) : (s.sendBack th p b n since o).det = s.det := by unfold State.sendBack; split <;> simp [State.thDraw]
@[simp] theorem State.sendBack_detLast (th : Thread) (p : Nat) (b : Bool) (n since : Nat) (o : PortOp) : (s.sendBack th p b n since o).detLast = s.detLast := by unfold State.sendBack; split <;> simp [State.thDraw]
@[simp] theorem State.sendBack_waits (th : Thread) (p : Nat) (b : Bool) (n since : Nat) (o : PortOp) : (s.sendBack th p b n since o).waits = s.waits := by unfold State.sendBack; split <;> simp [State.thDraw]
@[simp] theorem State.sendBack_ebb (th : Thread) (p : Nat) (b : Bool) (n since : Nat) (o : PortOp) : (s.sendBack th p b n since o).ebb = s.ebb := by unfold State.sendBack; split <;> simp [State.thDraw]
@[simp] theorem State.sendBack_fabric (th : Thread) (p : Nat) (b : Bool) (n since : Nat) (o : PortOp) : (s.sendBack th p b n since o).fabric = s.fabric := by unfold State.sendBack; split <;> simp [State.thDraw]
@[simp] theorem State.sendBack_host (th : Thread) (p : Nat) (b : Bool) (n since : Nat) (o : PortOp) : (s.sendBack th p b n since o).host = s.host := by unfold State.sendBack; split <;> simp [State.thDraw]

/-! ### enginePacket -/

@[simp] theorem State.enginePacket_ticks (src dst : Nat) (k : Option Nat) (n l r : Nat) (e : Instr) : (s.enginePacket src dst k n l r e).ticks = s.ticks := rfl
@[simp] theorem State.enginePacket_swm (src dst : Nat) (k : Option Nat) (n l r : Nat) (e : Instr) : (s.enginePacket src dst k n l r e).swm = s.swm := rfl
@[simp] theorem State.enginePacket_swmSample (src dst : Nat) (k : Option Nat) (n l r : Nat) (e : Instr) : (s.enginePacket src dst k n l r e).swmSample = s.swmSample := rfl
@[simp] theorem State.enginePacket_mem (src dst : Nat) (k : Option Nat) (n l r : Nat) (e : Instr) : (s.enginePacket src dst k n l r e).mem = s.mem := rfl
@[simp] theorem State.enginePacket_threads (src dst : Nat) (k : Option Nat) (n l r : Nat) (e : Instr) : (s.enginePacket src dst k n l r e).threads = s.threads := rfl
@[simp] theorem State.enginePacket_cores (src dst : Nat) (k : Option Nat) (n l r : Nat) (e : Instr) : (s.enginePacket src dst k n l r e).cores = s.cores := rfl
@[simp] theorem State.enginePacket_rows (src dst : Nat) (k : Option Nat) (n l r : Nat) (e : Instr) : (s.enginePacket src dst k n l r e).rows = s.rows := rfl
@[simp] theorem State.enginePacket_ctxs (src dst : Nat) (k : Option Nat) (n l r : Nat) (e : Instr) : (s.enginePacket src dst k n l r e).ctxs = s.ctxs := rfl
@[simp] theorem State.enginePacket_kernels (src dst : Nat) (k : Option Nat) (n l r : Nat) (e : Instr) : (s.enginePacket src dst k n l r e).kernels = s.kernels := rfl
@[simp] theorem State.enginePacket_queues (src dst : Nat) (k : Option Nat) (n l r : Nat) (e : Instr) : (s.enginePacket src dst k n l r e).queues = s.queues := rfl
@[simp] theorem State.enginePacket_pkg (src dst : Nat) (k : Option Nat) (n l r : Nat) (e : Instr) : (s.enginePacket src dst k n l r e).pkg = s.pkg := rfl
@[simp] theorem State.enginePacket_qp (src dst : Nat) (k : Option Nat) (n l r : Nat) (e : Instr) : (s.enginePacket src dst k n l r e).qp = s.qp := rfl
@[simp] theorem State.enginePacket_quarantine (src dst : Nat) (k : Option Nat) (n l r : Nat) (e : Instr) : (s.enginePacket src dst k n l r e).quarantine = s.quarantine := rfl
@[simp] theorem State.enginePacket_ni (src dst : Nat) (k : Option Nat) (n l r : Nat) (e : Instr) : (s.enginePacket src dst k n l r e).ni = s.ni := rfl
@[simp] theorem State.enginePacket_rxe (src dst : Nat) (k : Option Nat) (n l r : Nat) (e : Instr) : (s.enginePacket src dst k n l r e).rxe = s.rxe := rfl
@[simp] theorem State.enginePacket_copies (src dst : Nat) (k : Option Nat) (n l r : Nat) (e : Instr) : (s.enginePacket src dst k n l r e).copies = s.copies := rfl
@[simp] theorem State.enginePacket_turns (src dst : Nat) (k : Option Nat) (n l r : Nat) (e : Instr) : (s.enginePacket src dst k n l r e).turns = s.turns := rfl
@[simp] theorem State.enginePacket_det (src dst : Nat) (k : Option Nat) (n l r : Nat) (e : Instr) : (s.enginePacket src dst k n l r e).det = s.det := rfl
@[simp] theorem State.enginePacket_detLast (src dst : Nat) (k : Option Nat) (n l r : Nat) (e : Instr) : (s.enginePacket src dst k n l r e).detLast = s.detLast := rfl
@[simp] theorem State.enginePacket_waits (src dst : Nat) (k : Option Nat) (n l r : Nat) (e : Instr) : (s.enginePacket src dst k n l r e).waits = s.waits := rfl
@[simp] theorem State.enginePacket_ebb (src dst : Nat) (k : Option Nat) (n l r : Nat) (e : Instr) : (s.enginePacket src dst k n l r e).ebb = s.ebb := rfl
@[simp] theorem State.enginePacket_fabric (src dst : Nat) (k : Option Nat) (n l r : Nat) (e : Instr) : (s.enginePacket src dst k n l r e).fabric = s.fabric := rfl
@[simp] theorem State.enginePacket_host (src dst : Nat) (k : Option Nat) (n l r : Nat) (e : Instr) : (s.enginePacket src dst k n l r e).host = s.host := rfl

/-! ### What sets out -/

/-- The packets under way are those before, with one behind them. -/
theorem State.netSend_pkts (src dst flow : Nat) (b : Bool) (k : Option Nat) (n w l tl r : Nat) (st : Bool) (e : Instr) :
    ∃ p, (s.netSend src dst flow b k n w l tl r st e).xbar.pkts = s.xbar.pkts ++ [p] ∧ p.src = src ∧ p.dst = dst ∧
      p.beats = beatsOf n ∧ p.event = e ∧ p.bounded = b :=
  ⟨_, rfl, rfl, rfl, rfl, rfl, rfl⟩

end Sys2Proof.Machine
end

