-- ==== Sys2Proof/Laws/State.lean ====
section
/-! SUPPORT. What each update of State leaves as it was, one lemma for each field and update, and reading back the
thread just written. -/

namespace Sys2Proof.Machine

variable (s : State)

/-! ### putThread -/

@[simp] theorem State.putThread_ticks (th : Thread) : (s.putThread th).ticks = s.ticks := rfl
@[simp] theorem State.putThread_swm (th : Thread) : (s.putThread th).swm = s.swm := rfl
@[simp] theorem State.putThread_swmSample (th : Thread) : (s.putThread th).swmSample = s.swmSample := rfl
@[simp] theorem State.putThread_mem (th : Thread) : (s.putThread th).mem = s.mem := rfl
@[simp] theorem State.putThread_cores (th : Thread) : (s.putThread th).cores = s.cores := rfl
@[simp] theorem State.putThread_rows (th : Thread) : (s.putThread th).rows = s.rows := rfl
@[simp] theorem State.putThread_ctxs (th : Thread) : (s.putThread th).ctxs = s.ctxs := rfl
@[simp] theorem State.putThread_kernels (th : Thread) : (s.putThread th).kernels = s.kernels := rfl
@[simp] theorem State.putThread_queues (th : Thread) : (s.putThread th).queues = s.queues := rfl
@[simp] theorem State.putThread_pkg (th : Thread) : (s.putThread th).pkg = s.pkg := rfl
@[simp] theorem State.putThread_qp (th : Thread) : (s.putThread th).qp = s.qp := rfl
@[simp] theorem State.putThread_quarantine (th : Thread) : (s.putThread th).quarantine = s.quarantine := rfl
@[simp] theorem State.putThread_ni (th : Thread) : (s.putThread th).ni = s.ni := rfl
@[simp] theorem State.putThread_rxe (th : Thread) : (s.putThread th).rxe = s.rxe := rfl
@[simp] theorem State.putThread_copies (th : Thread) : (s.putThread th).copies = s.copies := rfl
@[simp] theorem State.putThread_det (th : Thread) : (s.putThread th).det = s.det := rfl
@[simp] theorem State.putThread_turns (th : Thread) : (s.putThread th).turns = s.turns := rfl
@[simp] theorem State.putThread_detLast (th : Thread) : (s.putThread th).detLast = s.detLast := rfl
@[simp] theorem State.putThread_waits (th : Thread) : (s.putThread th).waits = s.waits := rfl
@[simp] theorem State.putThread_xbar (th : Thread) : (s.putThread th).xbar = s.xbar := rfl
@[simp] theorem State.putThread_ebb (th : Thread) : (s.putThread th).ebb = s.ebb := rfl
@[simp] theorem State.putThread_fabric (th : Thread) : (s.putThread th).fabric = s.fabric := rfl
@[simp] theorem State.putThread_host (th : Thread) : (s.putThread th).host = s.host := rfl
@[simp] theorem State.putThread_sched (th : Thread) : (s.putThread th).sched = s.sched := rfl

/-! ### modThread -/

@[simp] theorem State.modThread_ticks (t : Tid) (f : Thread → Thread) : (s.modThread t f).ticks = s.ticks := by unfold State.modThread; split <;> rfl
@[simp] theorem State.modThread_swm (t : Tid) (f : Thread → Thread) : (s.modThread t f).swm = s.swm := by unfold State.modThread; split <;> rfl
@[simp] theorem State.modThread_swmSample (t : Tid) (f : Thread → Thread) : (s.modThread t f).swmSample = s.swmSample := by unfold State.modThread; split <;> rfl
@[simp] theorem State.modThread_mem (t : Tid) (f : Thread → Thread) : (s.modThread t f).mem = s.mem := by unfold State.modThread; split <;> rfl
@[simp] theorem State.modThread_cores (t : Tid) (f : Thread → Thread) : (s.modThread t f).cores = s.cores := by unfold State.modThread; split <;> rfl
@[simp] theorem State.modThread_rows (t : Tid) (f : Thread → Thread) : (s.modThread t f).rows = s.rows := by unfold State.modThread; split <;> rfl
@[simp] theorem State.modThread_ctxs (t : Tid) (f : Thread → Thread) : (s.modThread t f).ctxs = s.ctxs := by unfold State.modThread; split <;> rfl
@[simp] theorem State.modThread_kernels (t : Tid) (f : Thread → Thread) : (s.modThread t f).kernels = s.kernels := by unfold State.modThread; split <;> rfl
@[simp] theorem State.modThread_queues (t : Tid) (f : Thread → Thread) : (s.modThread t f).queues = s.queues := by unfold State.modThread; split <;> rfl
@[simp] theorem State.modThread_pkg (t : Tid) (f : Thread → Thread) : (s.modThread t f).pkg = s.pkg := by unfold State.modThread; split <;> rfl
@[simp] theorem State.modThread_qp (t : Tid) (f : Thread → Thread) : (s.modThread t f).qp = s.qp := by unfold State.modThread; split <;> rfl
@[simp] theorem State.modThread_quarantine (t : Tid) (f : Thread → Thread) : (s.modThread t f).quarantine = s.quarantine := by unfold State.modThread; split <;> rfl
@[simp] theorem State.modThread_ni (t : Tid) (f : Thread → Thread) : (s.modThread t f).ni = s.ni := by unfold State.modThread; split <;> rfl
@[simp] theorem State.modThread_rxe (t : Tid) (f : Thread → Thread) : (s.modThread t f).rxe = s.rxe := by unfold State.modThread; split <;> rfl
@[simp] theorem State.modThread_copies (t : Tid) (f : Thread → Thread) : (s.modThread t f).copies = s.copies := by unfold State.modThread; split <;> rfl
@[simp] theorem State.modThread_det (t : Tid) (f : Thread → Thread) : (s.modThread t f).det = s.det := by unfold State.modThread; split <;> rfl
@[simp] theorem State.modThread_turns (t : Tid) (f : Thread → Thread) : (s.modThread t f).turns = s.turns := by unfold State.modThread; split <;> rfl
@[simp] theorem State.modThread_detLast (t : Tid) (f : Thread → Thread) : (s.modThread t f).detLast = s.detLast := by unfold State.modThread; split <;> rfl
@[simp] theorem State.modThread_waits (t : Tid) (f : Thread → Thread) : (s.modThread t f).waits = s.waits := by unfold State.modThread; split <;> rfl
@[simp] theorem State.modThread_xbar (t : Tid) (f : Thread → Thread) : (s.modThread t f).xbar = s.xbar := by unfold State.modThread; split <;> rfl
@[simp] theorem State.modThread_ebb (t : Tid) (f : Thread → Thread) : (s.modThread t f).ebb = s.ebb := by unfold State.modThread; split <;> rfl
@[simp] theorem State.modThread_fabric (t : Tid) (f : Thread → Thread) : (s.modThread t f).fabric = s.fabric := by unfold State.modThread; split <;> rfl
@[simp] theorem State.modThread_host (t : Tid) (f : Thread → Thread) : (s.modThread t f).host = s.host := by unfold State.modThread; split <;> rfl
@[simp] theorem State.modThread_sched (t : Tid) (f : Thread → Thread) : (s.modThread t f).sched = s.sched := by unfold State.modThread; split <;> rfl

/-! ### putCore -/

@[simp] theorem State.putCore_ticks (n : Nat) (r : CoreRec) : (s.putCore n r).ticks = s.ticks := rfl
@[simp] theorem State.putCore_swm (n : Nat) (r : CoreRec) : (s.putCore n r).swm = s.swm := rfl
@[simp] theorem State.putCore_swmSample (n : Nat) (r : CoreRec) : (s.putCore n r).swmSample = s.swmSample := rfl
@[simp] theorem State.putCore_mem (n : Nat) (r : CoreRec) : (s.putCore n r).mem = s.mem := rfl
@[simp] theorem State.putCore_threads (n : Nat) (r : CoreRec) : (s.putCore n r).threads = s.threads := rfl
@[simp] theorem State.putCore_rows (n : Nat) (r : CoreRec) : (s.putCore n r).rows = s.rows := rfl
@[simp] theorem State.putCore_ctxs (n : Nat) (r : CoreRec) : (s.putCore n r).ctxs = s.ctxs := rfl
@[simp] theorem State.putCore_kernels (n : Nat) (r : CoreRec) : (s.putCore n r).kernels = s.kernels := rfl
@[simp] theorem State.putCore_queues (n : Nat) (r : CoreRec) : (s.putCore n r).queues = s.queues := rfl
@[simp] theorem State.putCore_pkg (n : Nat) (r : CoreRec) : (s.putCore n r).pkg = s.pkg := rfl
@[simp] theorem State.putCore_qp (n : Nat) (r : CoreRec) : (s.putCore n r).qp = s.qp := rfl
@[simp] theorem State.putCore_quarantine (n : Nat) (r : CoreRec) : (s.putCore n r).quarantine = s.quarantine := rfl
@[simp] theorem State.putCore_ni (n : Nat) (r : CoreRec) : (s.putCore n r).ni = s.ni := rfl
@[simp] theorem State.putCore_rxe (n : Nat) (r : CoreRec) : (s.putCore n r).rxe = s.rxe := rfl
@[simp] theorem State.putCore_copies (n : Nat) (r : CoreRec) : (s.putCore n r).copies = s.copies := rfl
@[simp] theorem State.putCore_det (n : Nat) (r : CoreRec) : (s.putCore n r).det = s.det := rfl
@[simp] theorem State.putCore_turns (n : Nat) (r : CoreRec) : (s.putCore n r).turns = s.turns := rfl
@[simp] theorem State.putCore_detLast (n : Nat) (r : CoreRec) : (s.putCore n r).detLast = s.detLast := rfl
@[simp] theorem State.putCore_waits (n : Nat) (r : CoreRec) : (s.putCore n r).waits = s.waits := rfl
@[simp] theorem State.putCore_xbar (n : Nat) (r : CoreRec) : (s.putCore n r).xbar = s.xbar := rfl
@[simp] theorem State.putCore_ebb (n : Nat) (r : CoreRec) : (s.putCore n r).ebb = s.ebb := rfl
@[simp] theorem State.putCore_fabric (n : Nat) (r : CoreRec) : (s.putCore n r).fabric = s.fabric := rfl
@[simp] theorem State.putCore_host (n : Nat) (r : CoreRec) : (s.putCore n r).host = s.host := rfl
@[simp] theorem State.putCore_sched (n : Nat) (r : CoreRec) : (s.putCore n r).sched = s.sched := rfl

/-! ### modCore -/

@[simp] theorem State.modCore_ticks (n : Nat) (f : CoreRec → CoreRec) : (s.modCore n f).ticks = s.ticks := rfl
@[simp] theorem State.modCore_swm (n : Nat) (f : CoreRec → CoreRec) : (s.modCore n f).swm = s.swm := rfl
@[simp] theorem State.modCore_swmSample (n : Nat) (f : CoreRec → CoreRec) : (s.modCore n f).swmSample = s.swmSample := rfl
@[simp] theorem State.modCore_mem (n : Nat) (f : CoreRec → CoreRec) : (s.modCore n f).mem = s.mem := rfl
@[simp] theorem State.modCore_threads (n : Nat) (f : CoreRec → CoreRec) : (s.modCore n f).threads = s.threads := rfl
@[simp] theorem State.modCore_rows (n : Nat) (f : CoreRec → CoreRec) : (s.modCore n f).rows = s.rows := rfl
@[simp] theorem State.modCore_ctxs (n : Nat) (f : CoreRec → CoreRec) : (s.modCore n f).ctxs = s.ctxs := rfl
@[simp] theorem State.modCore_kernels (n : Nat) (f : CoreRec → CoreRec) : (s.modCore n f).kernels = s.kernels := rfl
@[simp] theorem State.modCore_queues (n : Nat) (f : CoreRec → CoreRec) : (s.modCore n f).queues = s.queues := rfl
@[simp] theorem State.modCore_pkg (n : Nat) (f : CoreRec → CoreRec) : (s.modCore n f).pkg = s.pkg := rfl
@[simp] theorem State.modCore_qp (n : Nat) (f : CoreRec → CoreRec) : (s.modCore n f).qp = s.qp := rfl
@[simp] theorem State.modCore_quarantine (n : Nat) (f : CoreRec → CoreRec) : (s.modCore n f).quarantine = s.quarantine := rfl
@[simp] theorem State.modCore_ni (n : Nat) (f : CoreRec → CoreRec) : (s.modCore n f).ni = s.ni := rfl
@[simp] theorem State.modCore_rxe (n : Nat) (f : CoreRec → CoreRec) : (s.modCore n f).rxe = s.rxe := rfl
@[simp] theorem State.modCore_copies (n : Nat) (f : CoreRec → CoreRec) : (s.modCore n f).copies = s.copies := rfl
@[simp] theorem State.modCore_det (n : Nat) (f : CoreRec → CoreRec) : (s.modCore n f).det = s.det := rfl
@[simp] theorem State.modCore_turns (n : Nat) (f : CoreRec → CoreRec) : (s.modCore n f).turns = s.turns := rfl
@[simp] theorem State.modCore_detLast (n : Nat) (f : CoreRec → CoreRec) : (s.modCore n f).detLast = s.detLast := rfl
@[simp] theorem State.modCore_waits (n : Nat) (f : CoreRec → CoreRec) : (s.modCore n f).waits = s.waits := rfl
@[simp] theorem State.modCore_xbar (n : Nat) (f : CoreRec → CoreRec) : (s.modCore n f).xbar = s.xbar := rfl
@[simp] theorem State.modCore_ebb (n : Nat) (f : CoreRec → CoreRec) : (s.modCore n f).ebb = s.ebb := rfl
@[simp] theorem State.modCore_fabric (n : Nat) (f : CoreRec → CoreRec) : (s.modCore n f).fabric = s.fabric := rfl
@[simp] theorem State.modCore_host (n : Nat) (f : CoreRec → CoreRec) : (s.modCore n f).host = s.host := rfl
@[simp] theorem State.modCore_sched (n : Nat) (f : CoreRec → CoreRec) : (s.modCore n f).sched = s.sched := rfl

/-! ### putRow -/

@[simp] theorem State.putRow_ticks (n : Nat) (r : RowRec) : (s.putRow n r).ticks = s.ticks := rfl
@[simp] theorem State.putRow_swm (n : Nat) (r : RowRec) : (s.putRow n r).swm = s.swm := rfl
@[simp] theorem State.putRow_swmSample (n : Nat) (r : RowRec) : (s.putRow n r).swmSample = s.swmSample := rfl
@[simp] theorem State.putRow_mem (n : Nat) (r : RowRec) : (s.putRow n r).mem = s.mem := rfl
@[simp] theorem State.putRow_threads (n : Nat) (r : RowRec) : (s.putRow n r).threads = s.threads := rfl
@[simp] theorem State.putRow_cores (n : Nat) (r : RowRec) : (s.putRow n r).cores = s.cores := rfl
@[simp] theorem State.putRow_ctxs (n : Nat) (r : RowRec) : (s.putRow n r).ctxs = s.ctxs := rfl
@[simp] theorem State.putRow_kernels (n : Nat) (r : RowRec) : (s.putRow n r).kernels = s.kernels := rfl
@[simp] theorem State.putRow_queues (n : Nat) (r : RowRec) : (s.putRow n r).queues = s.queues := rfl
@[simp] theorem State.putRow_pkg (n : Nat) (r : RowRec) : (s.putRow n r).pkg = s.pkg := rfl
@[simp] theorem State.putRow_qp (n : Nat) (r : RowRec) : (s.putRow n r).qp = s.qp := rfl
@[simp] theorem State.putRow_quarantine (n : Nat) (r : RowRec) : (s.putRow n r).quarantine = s.quarantine := rfl
@[simp] theorem State.putRow_ni (n : Nat) (r : RowRec) : (s.putRow n r).ni = s.ni := rfl
@[simp] theorem State.putRow_rxe (n : Nat) (r : RowRec) : (s.putRow n r).rxe = s.rxe := rfl
@[simp] theorem State.putRow_copies (n : Nat) (r : RowRec) : (s.putRow n r).copies = s.copies := rfl
@[simp] theorem State.putRow_det (n : Nat) (r : RowRec) : (s.putRow n r).det = s.det := rfl
@[simp] theorem State.putRow_turns (n : Nat) (r : RowRec) : (s.putRow n r).turns = s.turns := rfl
@[simp] theorem State.putRow_detLast (n : Nat) (r : RowRec) : (s.putRow n r).detLast = s.detLast := rfl
@[simp] theorem State.putRow_waits (n : Nat) (r : RowRec) : (s.putRow n r).waits = s.waits := rfl
@[simp] theorem State.putRow_xbar (n : Nat) (r : RowRec) : (s.putRow n r).xbar = s.xbar := rfl
@[simp] theorem State.putRow_ebb (n : Nat) (r : RowRec) : (s.putRow n r).ebb = s.ebb := rfl
@[simp] theorem State.putRow_fabric (n : Nat) (r : RowRec) : (s.putRow n r).fabric = s.fabric := rfl
@[simp] theorem State.putRow_host (n : Nat) (r : RowRec) : (s.putRow n r).host = s.host := rfl
@[simp] theorem State.putRow_sched (n : Nat) (r : RowRec) : (s.putRow n r).sched = s.sched := rfl

/-! ### modRow -/

@[simp] theorem State.modRow_ticks (n : Nat) (f : RowRec → RowRec) : (s.modRow n f).ticks = s.ticks := rfl
@[simp] theorem State.modRow_swm (n : Nat) (f : RowRec → RowRec) : (s.modRow n f).swm = s.swm := rfl
@[simp] theorem State.modRow_swmSample (n : Nat) (f : RowRec → RowRec) : (s.modRow n f).swmSample = s.swmSample := rfl
@[simp] theorem State.modRow_mem (n : Nat) (f : RowRec → RowRec) : (s.modRow n f).mem = s.mem := rfl
@[simp] theorem State.modRow_threads (n : Nat) (f : RowRec → RowRec) : (s.modRow n f).threads = s.threads := rfl
@[simp] theorem State.modRow_cores (n : Nat) (f : RowRec → RowRec) : (s.modRow n f).cores = s.cores := rfl
@[simp] theorem State.modRow_ctxs (n : Nat) (f : RowRec → RowRec) : (s.modRow n f).ctxs = s.ctxs := rfl
@[simp] theorem State.modRow_kernels (n : Nat) (f : RowRec → RowRec) : (s.modRow n f).kernels = s.kernels := rfl
@[simp] theorem State.modRow_queues (n : Nat) (f : RowRec → RowRec) : (s.modRow n f).queues = s.queues := rfl
@[simp] theorem State.modRow_pkg (n : Nat) (f : RowRec → RowRec) : (s.modRow n f).pkg = s.pkg := rfl
@[simp] theorem State.modRow_qp (n : Nat) (f : RowRec → RowRec) : (s.modRow n f).qp = s.qp := rfl
@[simp] theorem State.modRow_quarantine (n : Nat) (f : RowRec → RowRec) : (s.modRow n f).quarantine = s.quarantine := rfl
@[simp] theorem State.modRow_ni (n : Nat) (f : RowRec → RowRec) : (s.modRow n f).ni = s.ni := rfl
@[simp] theorem State.modRow_rxe (n : Nat) (f : RowRec → RowRec) : (s.modRow n f).rxe = s.rxe := rfl
@[simp] theorem State.modRow_copies (n : Nat) (f : RowRec → RowRec) : (s.modRow n f).copies = s.copies := rfl
@[simp] theorem State.modRow_det (n : Nat) (f : RowRec → RowRec) : (s.modRow n f).det = s.det := rfl
@[simp] theorem State.modRow_turns (n : Nat) (f : RowRec → RowRec) : (s.modRow n f).turns = s.turns := rfl
@[simp] theorem State.modRow_detLast (n : Nat) (f : RowRec → RowRec) : (s.modRow n f).detLast = s.detLast := rfl
@[simp] theorem State.modRow_waits (n : Nat) (f : RowRec → RowRec) : (s.modRow n f).waits = s.waits := rfl
@[simp] theorem State.modRow_xbar (n : Nat) (f : RowRec → RowRec) : (s.modRow n f).xbar = s.xbar := rfl
@[simp] theorem State.modRow_ebb (n : Nat) (f : RowRec → RowRec) : (s.modRow n f).ebb = s.ebb := rfl
@[simp] theorem State.modRow_fabric (n : Nat) (f : RowRec → RowRec) : (s.modRow n f).fabric = s.fabric := rfl
@[simp] theorem State.modRow_host (n : Nat) (f : RowRec → RowRec) : (s.modRow n f).host = s.host := rfl
@[simp] theorem State.modRow_sched (n : Nat) (f : RowRec → RowRec) : (s.modRow n f).sched = s.sched := rfl

/-! ### modCtx -/

@[simp] theorem State.modCtx_ticks (a : Nat) (f : Ctx → Ctx) : (s.modCtx a f).ticks = s.ticks := rfl
@[simp] theorem State.modCtx_swm (a : Nat) (f : Ctx → Ctx) : (s.modCtx a f).swm = s.swm := rfl
@[simp] theorem State.modCtx_swmSample (a : Nat) (f : Ctx → Ctx) : (s.modCtx a f).swmSample = s.swmSample := rfl
@[simp] theorem State.modCtx_mem (a : Nat) (f : Ctx → Ctx) : (s.modCtx a f).mem = s.mem := rfl
@[simp] theorem State.modCtx_threads (a : Nat) (f : Ctx → Ctx) : (s.modCtx a f).threads = s.threads := rfl
@[simp] theorem State.modCtx_cores (a : Nat) (f : Ctx → Ctx) : (s.modCtx a f).cores = s.cores := rfl
@[simp] theorem State.modCtx_rows (a : Nat) (f : Ctx → Ctx) : (s.modCtx a f).rows = s.rows := rfl
@[simp] theorem State.modCtx_kernels (a : Nat) (f : Ctx → Ctx) : (s.modCtx a f).kernels = s.kernels := rfl
@[simp] theorem State.modCtx_queues (a : Nat) (f : Ctx → Ctx) : (s.modCtx a f).queues = s.queues := rfl
@[simp] theorem State.modCtx_pkg (a : Nat) (f : Ctx → Ctx) : (s.modCtx a f).pkg = s.pkg := rfl
@[simp] theorem State.modCtx_qp (a : Nat) (f : Ctx → Ctx) : (s.modCtx a f).qp = s.qp := rfl
@[simp] theorem State.modCtx_quarantine (a : Nat) (f : Ctx → Ctx) : (s.modCtx a f).quarantine = s.quarantine := rfl
@[simp] theorem State.modCtx_ni (a : Nat) (f : Ctx → Ctx) : (s.modCtx a f).ni = s.ni := rfl
@[simp] theorem State.modCtx_rxe (a : Nat) (f : Ctx → Ctx) : (s.modCtx a f).rxe = s.rxe := rfl
@[simp] theorem State.modCtx_copies (a : Nat) (f : Ctx → Ctx) : (s.modCtx a f).copies = s.copies := rfl
@[simp] theorem State.modCtx_det (a : Nat) (f : Ctx → Ctx) : (s.modCtx a f).det = s.det := rfl
@[simp] theorem State.modCtx_turns (a : Nat) (f : Ctx → Ctx) : (s.modCtx a f).turns = s.turns := rfl
@[simp] theorem State.modCtx_detLast (a : Nat) (f : Ctx → Ctx) : (s.modCtx a f).detLast = s.detLast := rfl
@[simp] theorem State.modCtx_waits (a : Nat) (f : Ctx → Ctx) : (s.modCtx a f).waits = s.waits := rfl
@[simp] theorem State.modCtx_xbar (a : Nat) (f : Ctx → Ctx) : (s.modCtx a f).xbar = s.xbar := rfl
@[simp] theorem State.modCtx_ebb (a : Nat) (f : Ctx → Ctx) : (s.modCtx a f).ebb = s.ebb := rfl
@[simp] theorem State.modCtx_fabric (a : Nat) (f : Ctx → Ctx) : (s.modCtx a f).fabric = s.fabric := rfl
@[simp] theorem State.modCtx_host (a : Nat) (f : Ctx → Ctx) : (s.modCtx a f).host = s.host := rfl
@[simp] theorem State.modCtx_sched (a : Nat) (f : Ctx → Ctx) : (s.modCtx a f).sched = s.sched := rfl

/-! ### putQueue -/

@[simp] theorem State.putQueue_ticks (q : Nat) (r : QueueRec) : (s.putQueue q r).ticks = s.ticks := rfl
@[simp] theorem State.putQueue_swm (q : Nat) (r : QueueRec) : (s.putQueue q r).swm = s.swm := rfl
@[simp] theorem State.putQueue_swmSample (q : Nat) (r : QueueRec) : (s.putQueue q r).swmSample = s.swmSample := rfl
@[simp] theorem State.putQueue_mem (q : Nat) (r : QueueRec) : (s.putQueue q r).mem = s.mem := rfl
@[simp] theorem State.putQueue_threads (q : Nat) (r : QueueRec) : (s.putQueue q r).threads = s.threads := rfl
@[simp] theorem State.putQueue_cores (q : Nat) (r : QueueRec) : (s.putQueue q r).cores = s.cores := rfl
@[simp] theorem State.putQueue_rows (q : Nat) (r : QueueRec) : (s.putQueue q r).rows = s.rows := rfl
@[simp] theorem State.putQueue_ctxs (q : Nat) (r : QueueRec) : (s.putQueue q r).ctxs = s.ctxs := rfl
@[simp] theorem State.putQueue_kernels (q : Nat) (r : QueueRec) : (s.putQueue q r).kernels = s.kernels := rfl
@[simp] theorem State.putQueue_pkg (q : Nat) (r : QueueRec) : (s.putQueue q r).pkg = s.pkg := rfl
@[simp] theorem State.putQueue_qp (q : Nat) (r : QueueRec) : (s.putQueue q r).qp = s.qp := rfl
@[simp] theorem State.putQueue_quarantine (q : Nat) (r : QueueRec) : (s.putQueue q r).quarantine = s.quarantine := rfl
@[simp] theorem State.putQueue_ni (q : Nat) (r : QueueRec) : (s.putQueue q r).ni = s.ni := rfl
@[simp] theorem State.putQueue_rxe (q : Nat) (r : QueueRec) : (s.putQueue q r).rxe = s.rxe := rfl
@[simp] theorem State.putQueue_copies (q : Nat) (r : QueueRec) : (s.putQueue q r).copies = s.copies := rfl
@[simp] theorem State.putQueue_det (q : Nat) (r : QueueRec) : (s.putQueue q r).det = s.det := rfl
@[simp] theorem State.putQueue_turns (q : Nat) (r : QueueRec) : (s.putQueue q r).turns = s.turns := rfl
@[simp] theorem State.putQueue_detLast (q : Nat) (r : QueueRec) : (s.putQueue q r).detLast = s.detLast := rfl
@[simp] theorem State.putQueue_waits (q : Nat) (r : QueueRec) : (s.putQueue q r).waits = s.waits := rfl
@[simp] theorem State.putQueue_xbar (q : Nat) (r : QueueRec) : (s.putQueue q r).xbar = s.xbar := rfl
@[simp] theorem State.putQueue_ebb (q : Nat) (r : QueueRec) : (s.putQueue q r).ebb = s.ebb := rfl
@[simp] theorem State.putQueue_fabric (q : Nat) (r : QueueRec) : (s.putQueue q r).fabric = s.fabric := rfl
@[simp] theorem State.putQueue_host (q : Nat) (r : QueueRec) : (s.putQueue q r).host = s.host := rfl
@[simp] theorem State.putQueue_sched (q : Nat) (r : QueueRec) : (s.putQueue q r).sched = s.sched := rfl

/-! ### count -/

@[simp] theorem State.count_ticks (a w n : Nat) : (s.count a w n).ticks = s.ticks := rfl
@[simp] theorem State.count_swm (a w n : Nat) : (s.count a w n).swm = s.swm := rfl
@[simp] theorem State.count_swmSample (a w n : Nat) : (s.count a w n).swmSample = s.swmSample := rfl
@[simp] theorem State.count_mem (a w n : Nat) : (s.count a w n).mem = s.mem := rfl
@[simp] theorem State.count_threads (a w n : Nat) : (s.count a w n).threads = s.threads := rfl
@[simp] theorem State.count_cores (a w n : Nat) : (s.count a w n).cores = s.cores := rfl
@[simp] theorem State.count_rows (a w n : Nat) : (s.count a w n).rows = s.rows := rfl
@[simp] theorem State.count_kernels (a w n : Nat) : (s.count a w n).kernels = s.kernels := rfl
@[simp] theorem State.count_queues (a w n : Nat) : (s.count a w n).queues = s.queues := rfl
@[simp] theorem State.count_qp (a w n : Nat) : (s.count a w n).qp = s.qp := rfl
@[simp] theorem State.count_quarantine (a w n : Nat) : (s.count a w n).quarantine = s.quarantine := rfl
@[simp] theorem State.count_ni (a w n : Nat) : (s.count a w n).ni = s.ni := rfl
@[simp] theorem State.count_rxe (a w n : Nat) : (s.count a w n).rxe = s.rxe := rfl
@[simp] theorem State.count_copies (a w n : Nat) : (s.count a w n).copies = s.copies := rfl
@[simp] theorem State.count_det (a w n : Nat) : (s.count a w n).det = s.det := rfl
@[simp] theorem State.count_turns (a w n : Nat) : (s.count a w n).turns = s.turns := rfl
@[simp] theorem State.count_detLast (a w n : Nat) : (s.count a w n).detLast = s.detLast := rfl
@[simp] theorem State.count_waits (a w n : Nat) : (s.count a w n).waits = s.waits := rfl
@[simp] theorem State.count_xbar (a w n : Nat) : (s.count a w n).xbar = s.xbar := rfl
@[simp] theorem State.count_ebb (a w n : Nat) : (s.count a w n).ebb = s.ebb := rfl
@[simp] theorem State.count_fabric (a w n : Nat) : (s.count a w n).fabric = s.fabric := rfl
@[simp] theorem State.count_host (a w n : Nat) : (s.count a w n).host = s.host := rfl
@[simp] theorem State.count_sched (a w n : Nat) : (s.count a w n).sched = s.sched := rfl

/-! ### draw -/

@[simp] theorem State.draw_ticks (n : Nat) : ((s.draw n).2).ticks = s.ticks := rfl
@[simp] theorem State.draw_swm (n : Nat) : ((s.draw n).2).swm = s.swm := rfl
@[simp] theorem State.draw_swmSample (n : Nat) : ((s.draw n).2).swmSample = s.swmSample := rfl
@[simp] theorem State.draw_mem (n : Nat) : ((s.draw n).2).mem = s.mem := rfl
@[simp] theorem State.draw_threads (n : Nat) : ((s.draw n).2).threads = s.threads := rfl
@[simp] theorem State.draw_cores (n : Nat) : ((s.draw n).2).cores = s.cores := rfl
@[simp] theorem State.draw_rows (n : Nat) : ((s.draw n).2).rows = s.rows := rfl
@[simp] theorem State.draw_ctxs (n : Nat) : ((s.draw n).2).ctxs = s.ctxs := rfl
@[simp] theorem State.draw_kernels (n : Nat) : ((s.draw n).2).kernels = s.kernels := rfl
@[simp] theorem State.draw_queues (n : Nat) : ((s.draw n).2).queues = s.queues := rfl
@[simp] theorem State.draw_pkg (n : Nat) : ((s.draw n).2).pkg = s.pkg := rfl
@[simp] theorem State.draw_qp (n : Nat) : ((s.draw n).2).qp = s.qp := rfl
@[simp] theorem State.draw_quarantine (n : Nat) : ((s.draw n).2).quarantine = s.quarantine := rfl
@[simp] theorem State.draw_ni (n : Nat) : ((s.draw n).2).ni = s.ni := rfl
@[simp] theorem State.draw_rxe (n : Nat) : ((s.draw n).2).rxe = s.rxe := rfl
@[simp] theorem State.draw_copies (n : Nat) : ((s.draw n).2).copies = s.copies := rfl
@[simp] theorem State.draw_det (n : Nat) : ((s.draw n).2).det = s.det := rfl
@[simp] theorem State.draw_turns (n : Nat) : ((s.draw n).2).turns = s.turns := rfl
@[simp] theorem State.draw_detLast (n : Nat) : ((s.draw n).2).detLast = s.detLast := rfl
@[simp] theorem State.draw_waits (n : Nat) : ((s.draw n).2).waits = s.waits := rfl
@[simp] theorem State.draw_xbar (n : Nat) : ((s.draw n).2).xbar = s.xbar := rfl
@[simp] theorem State.draw_ebb (n : Nat) : ((s.draw n).2).ebb = s.ebb := rfl
@[simp] theorem State.draw_fabric (n : Nat) : ((s.draw n).2).fabric = s.fabric := rfl
@[simp] theorem State.draw_host (n : Nat) : ((s.draw n).2).host = s.host := rfl

/-! ### fresh -/

@[simp] theorem State.fresh_ticks : (s.fresh.2).ticks = s.ticks := rfl
@[simp] theorem State.fresh_swm : (s.fresh.2).swm = s.swm := rfl
@[simp] theorem State.fresh_swmSample : (s.fresh.2).swmSample = s.swmSample := rfl
@[simp] theorem State.fresh_mem : (s.fresh.2).mem = s.mem := rfl
@[simp] theorem State.fresh_threads : (s.fresh.2).threads = s.threads := rfl
@[simp] theorem State.fresh_cores : (s.fresh.2).cores = s.cores := rfl
@[simp] theorem State.fresh_rows : (s.fresh.2).rows = s.rows := rfl
@[simp] theorem State.fresh_ctxs : (s.fresh.2).ctxs = s.ctxs := rfl
@[simp] theorem State.fresh_kernels : (s.fresh.2).kernels = s.kernels := rfl
@[simp] theorem State.fresh_queues : (s.fresh.2).queues = s.queues := rfl
@[simp] theorem State.fresh_pkg : (s.fresh.2).pkg = s.pkg := rfl
@[simp] theorem State.fresh_qp : (s.fresh.2).qp = s.qp := rfl
@[simp] theorem State.fresh_quarantine : (s.fresh.2).quarantine = s.quarantine := rfl
@[simp] theorem State.fresh_ni : (s.fresh.2).ni = s.ni := rfl
@[simp] theorem State.fresh_rxe : (s.fresh.2).rxe = s.rxe := rfl
@[simp] theorem State.fresh_copies : (s.fresh.2).copies = s.copies := rfl
@[simp] theorem State.fresh_det : (s.fresh.2).det = s.det := rfl
@[simp] theorem State.fresh_turns : (s.fresh.2).turns = s.turns := rfl
@[simp] theorem State.fresh_detLast : (s.fresh.2).detLast = s.detLast := rfl
@[simp] theorem State.fresh_waits : (s.fresh.2).waits = s.waits := rfl
@[simp] theorem State.fresh_xbar : (s.fresh.2).xbar = s.xbar := rfl
@[simp] theorem State.fresh_ebb : (s.fresh.2).ebb = s.ebb := rfl
@[simp] theorem State.fresh_fabric : (s.fresh.2).fabric = s.fabric := rfl
@[simp] theorem State.fresh_host : (s.fresh.2).host = s.host := rfl

/-! ### sched_ -/

@[simp] theorem State.sched__ticks (d k : Nat) (e : Instr) : (s.sched_ d k e).ticks = s.ticks := by unfold State.sched_; split <;> rfl
@[simp] theorem State.sched__swm (d k : Nat) (e : Instr) : (s.sched_ d k e).swm = s.swm := by unfold State.sched_; split <;> rfl
@[simp] theorem State.sched__swmSample (d k : Nat) (e : Instr) : (s.sched_ d k e).swmSample = s.swmSample := by unfold State.sched_; split <;> rfl
@[simp] theorem State.sched__mem (d k : Nat) (e : Instr) : (s.sched_ d k e).mem = s.mem := by unfold State.sched_; split <;> rfl
@[simp] theorem State.sched__threads (d k : Nat) (e : Instr) : (s.sched_ d k e).threads = s.threads := by unfold State.sched_; split <;> rfl
@[simp] theorem State.sched__cores (d k : Nat) (e : Instr) : (s.sched_ d k e).cores = s.cores := by unfold State.sched_; split <;> rfl
@[simp] theorem State.sched__rows (d k : Nat) (e : Instr) : (s.sched_ d k e).rows = s.rows := by unfold State.sched_; split <;> rfl
@[simp] theorem State.sched__ctxs (d k : Nat) (e : Instr) : (s.sched_ d k e).ctxs = s.ctxs := by unfold State.sched_; split <;> rfl
@[simp] theorem State.sched__kernels (d k : Nat) (e : Instr) : (s.sched_ d k e).kernels = s.kernels := by unfold State.sched_; split <;> rfl
@[simp] theorem State.sched__queues (d k : Nat) (e : Instr) : (s.sched_ d k e).queues = s.queues := by unfold State.sched_; split <;> rfl
@[simp] theorem State.sched__pkg (d k : Nat) (e : Instr) : (s.sched_ d k e).pkg = s.pkg := by unfold State.sched_; split <;> rfl
@[simp] theorem State.sched__qp (d k : Nat) (e : Instr) : (s.sched_ d k e).qp = s.qp := by unfold State.sched_; split <;> rfl
@[simp] theorem State.sched__quarantine (d k : Nat) (e : Instr) : (s.sched_ d k e).quarantine = s.quarantine := by unfold State.sched_; split <;> rfl
@[simp] theorem State.sched__ni (d k : Nat) (e : Instr) : (s.sched_ d k e).ni = s.ni := by unfold State.sched_; split <;> rfl
@[simp] theorem State.sched__rxe (d k : Nat) (e : Instr) : (s.sched_ d k e).rxe = s.rxe := by unfold State.sched_; split <;> rfl
@[simp] theorem State.sched__copies (d k : Nat) (e : Instr) : (s.sched_ d k e).copies = s.copies := by unfold State.sched_; split <;> rfl
@[simp] theorem State.sched__det (d k : Nat) (e : Instr) : (s.sched_ d k e).det = s.det := by unfold State.sched_; split <;> rfl
@[simp] theorem State.sched__turns (d k : Nat) (e : Instr) : (s.sched_ d k e).turns = s.turns := by unfold State.sched_; split <;> rfl
@[simp] theorem State.sched__detLast (d k : Nat) (e : Instr) : (s.sched_ d k e).detLast = s.detLast := by unfold State.sched_; split <;> rfl
@[simp] theorem State.sched__waits (d k : Nat) (e : Instr) : (s.sched_ d k e).waits = s.waits := by unfold State.sched_; split <;> rfl
@[simp] theorem State.sched__xbar (d k : Nat) (e : Instr) : (s.sched_ d k e).xbar = s.xbar := by unfold State.sched_; split <;> rfl
@[simp] theorem State.sched__ebb (d k : Nat) (e : Instr) : (s.sched_ d k e).ebb = s.ebb := by unfold State.sched_; split <;> rfl
@[simp] theorem State.sched__fabric (d k : Nat) (e : Instr) : (s.sched_ d k e).fabric = s.fabric := by unfold State.sched_; split <;> rfl
@[simp] theorem State.sched__host (d k : Nat) (e : Instr) : (s.sched_ d k e).host = s.host := by unfold State.sched_; split <;> rfl

/-! ### after_ -/

@[simp] theorem State.after__ticks (n k : Nat) (e : Instr) : (s.after_ n k e).ticks = s.ticks := by simp [State.after_]
@[simp] theorem State.after__swm (n k : Nat) (e : Instr) : (s.after_ n k e).swm = s.swm := by simp [State.after_]
@[simp] theorem State.after__swmSample (n k : Nat) (e : Instr) : (s.after_ n k e).swmSample = s.swmSample := by simp [State.after_]
@[simp] theorem State.after__mem (n k : Nat) (e : Instr) : (s.after_ n k e).mem = s.mem := by simp [State.after_]
@[simp] theorem State.after__threads (n k : Nat) (e : Instr) : (s.after_ n k e).threads = s.threads := by simp [State.after_]
@[simp] theorem State.after__cores (n k : Nat) (e : Instr) : (s.after_ n k e).cores = s.cores := by simp [State.after_]
@[simp] theorem State.after__rows (n k : Nat) (e : Instr) : (s.after_ n k e).rows = s.rows := by simp [State.after_]
@[simp] theorem State.after__ctxs (n k : Nat) (e : Instr) : (s.after_ n k e).ctxs = s.ctxs := by simp [State.after_]
@[simp] theorem State.after__kernels (n k : Nat) (e : Instr) : (s.after_ n k e).kernels = s.kernels := by simp [State.after_]
@[simp] theorem State.after__queues (n k : Nat) (e : Instr) : (s.after_ n k e).queues = s.queues := by simp [State.after_]
@[simp] theorem State.after__pkg (n k : Nat) (e : Instr) : (s.after_ n k e).pkg = s.pkg := by simp [State.after_]
@[simp] theorem State.after__qp (n k : Nat) (e : Instr) : (s.after_ n k e).qp = s.qp := by simp [State.after_]
@[simp] theorem State.after__quarantine (n k : Nat) (e : Instr) : (s.after_ n k e).quarantine = s.quarantine := by simp [State.after_]
@[simp] theorem State.after__ni (n k : Nat) (e : Instr) : (s.after_ n k e).ni = s.ni := by simp [State.after_]
@[simp] theorem State.after__rxe (n k : Nat) (e : Instr) : (s.after_ n k e).rxe = s.rxe := by simp [State.after_]
@[simp] theorem State.after__copies (n k : Nat) (e : Instr) : (s.after_ n k e).copies = s.copies := by simp [State.after_]
@[simp] theorem State.after__det (n k : Nat) (e : Instr) : (s.after_ n k e).det = s.det := by simp [State.after_]
@[simp] theorem State.after__turns (n k : Nat) (e : Instr) : (s.after_ n k e).turns = s.turns := by simp [State.after_]
@[simp] theorem State.after__detLast (n k : Nat) (e : Instr) : (s.after_ n k e).detLast = s.detLast := by simp [State.after_]
@[simp] theorem State.after__waits (n k : Nat) (e : Instr) : (s.after_ n k e).waits = s.waits := by simp [State.after_]
@[simp] theorem State.after__xbar (n k : Nat) (e : Instr) : (s.after_ n k e).xbar = s.xbar := by simp [State.after_]
@[simp] theorem State.after__ebb (n k : Nat) (e : Instr) : (s.after_ n k e).ebb = s.ebb := by simp [State.after_]
@[simp] theorem State.after__fabric (n k : Nat) (e : Instr) : (s.after_ n k e).fabric = s.fabric := by simp [State.after_]
@[simp] theorem State.after__host (n k : Nat) (e : Instr) : (s.after_ n k e).host = s.host := by simp [State.after_]

/-! ### later -/

@[simp] theorem State.later_ticks (n k : Nat) (e : Instr) : (s.later n k e).ticks = s.ticks := by simp [State.later]
@[simp] theorem State.later_swm (n k : Nat) (e : Instr) : (s.later n k e).swm = s.swm := by simp [State.later]
@[simp] theorem State.later_swmSample (n k : Nat) (e : Instr) : (s.later n k e).swmSample = s.swmSample := by simp [State.later]
@[simp] theorem State.later_mem (n k : Nat) (e : Instr) : (s.later n k e).mem = s.mem := by simp [State.later]
@[simp] theorem State.later_threads (n k : Nat) (e : Instr) : (s.later n k e).threads = s.threads := by simp [State.later]
@[simp] theorem State.later_cores (n k : Nat) (e : Instr) : (s.later n k e).cores = s.cores := by simp [State.later]
@[simp] theorem State.later_rows (n k : Nat) (e : Instr) : (s.later n k e).rows = s.rows := by simp [State.later]
@[simp] theorem State.later_ctxs (n k : Nat) (e : Instr) : (s.later n k e).ctxs = s.ctxs := by simp [State.later]
@[simp] theorem State.later_kernels (n k : Nat) (e : Instr) : (s.later n k e).kernels = s.kernels := by simp [State.later]
@[simp] theorem State.later_queues (n k : Nat) (e : Instr) : (s.later n k e).queues = s.queues := by simp [State.later]
@[simp] theorem State.later_pkg (n k : Nat) (e : Instr) : (s.later n k e).pkg = s.pkg := by simp [State.later]
@[simp] theorem State.later_qp (n k : Nat) (e : Instr) : (s.later n k e).qp = s.qp := by simp [State.later]
@[simp] theorem State.later_quarantine (n k : Nat) (e : Instr) : (s.later n k e).quarantine = s.quarantine := by simp [State.later]
@[simp] theorem State.later_ni (n k : Nat) (e : Instr) : (s.later n k e).ni = s.ni := by simp [State.later]
@[simp] theorem State.later_rxe (n k : Nat) (e : Instr) : (s.later n k e).rxe = s.rxe := by simp [State.later]
@[simp] theorem State.later_copies (n k : Nat) (e : Instr) : (s.later n k e).copies = s.copies := by simp [State.later]
@[simp] theorem State.later_det (n k : Nat) (e : Instr) : (s.later n k e).det = s.det := by simp [State.later]
@[simp] theorem State.later_turns (n k : Nat) (e : Instr) : (s.later n k e).turns = s.turns := by simp [State.later]
@[simp] theorem State.later_detLast (n k : Nat) (e : Instr) : (s.later n k e).detLast = s.detLast := by simp [State.later]
@[simp] theorem State.later_waits (n k : Nat) (e : Instr) : (s.later n k e).waits = s.waits := by simp [State.later]
@[simp] theorem State.later_xbar (n k : Nat) (e : Instr) : (s.later n k e).xbar = s.xbar := by simp [State.later]
@[simp] theorem State.later_ebb (n k : Nat) (e : Instr) : (s.later n k e).ebb = s.ebb := by simp [State.later]
@[simp] theorem State.later_fabric (n k : Nat) (e : Instr) : (s.later n k e).fabric = s.fabric := by simp [State.later]
@[simp] theorem State.later_host (n k : Nat) (e : Instr) : (s.later n k e).host = s.host := by simp [State.later]

/-! ### writeAt -/

@[simp] theorem State.writeAt_ticks (t : Tid) (n : Nat) (d : Dst) : (s.writeAt t n d).ticks = s.ticks := by simp [State.writeAt]
@[simp] theorem State.writeAt_swm (t : Tid) (n : Nat) (d : Dst) : (s.writeAt t n d).swm = s.swm := by simp [State.writeAt]
@[simp] theorem State.writeAt_swmSample (t : Tid) (n : Nat) (d : Dst) : (s.writeAt t n d).swmSample = s.swmSample := by simp [State.writeAt]
@[simp] theorem State.writeAt_mem (t : Tid) (n : Nat) (d : Dst) : (s.writeAt t n d).mem = s.mem := by simp [State.writeAt]
@[simp] theorem State.writeAt_cores (t : Tid) (n : Nat) (d : Dst) : (s.writeAt t n d).cores = s.cores := by simp [State.writeAt]
@[simp] theorem State.writeAt_rows (t : Tid) (n : Nat) (d : Dst) : (s.writeAt t n d).rows = s.rows := by simp [State.writeAt]
@[simp] theorem State.writeAt_ctxs (t : Tid) (n : Nat) (d : Dst) : (s.writeAt t n d).ctxs = s.ctxs := by simp [State.writeAt]
@[simp] theorem State.writeAt_kernels (t : Tid) (n : Nat) (d : Dst) : (s.writeAt t n d).kernels = s.kernels := by simp [State.writeAt]
@[simp] theorem State.writeAt_queues (t : Tid) (n : Nat) (d : Dst) : (s.writeAt t n d).queues = s.queues := by simp [State.writeAt]
@[simp] theorem State.writeAt_pkg (t : Tid) (n : Nat) (d : Dst) : (s.writeAt t n d).pkg = s.pkg := by simp [State.writeAt]
@[simp] theorem State.writeAt_qp (t : Tid) (n : Nat) (d : Dst) : (s.writeAt t n d).qp = s.qp := by simp [State.writeAt]
@[simp] theorem State.writeAt_quarantine (t : Tid) (n : Nat) (d : Dst) : (s.writeAt t n d).quarantine = s.quarantine := by simp [State.writeAt]
@[simp] theorem State.writeAt_ni (t : Tid) (n : Nat) (d : Dst) : (s.writeAt t n d).ni = s.ni := by simp [State.writeAt]
@[simp] theorem State.writeAt_rxe (t : Tid) (n : Nat) (d : Dst) : (s.writeAt t n d).rxe = s.rxe := by simp [State.writeAt]
@[simp] theorem State.writeAt_copies (t : Tid) (n : Nat) (d : Dst) : (s.writeAt t n d).copies = s.copies := by simp [State.writeAt]
@[simp] theorem State.writeAt_det (t : Tid) (n : Nat) (d : Dst) : (s.writeAt t n d).det = s.det := by simp [State.writeAt]
@[simp] theorem State.writeAt_turns (t : Tid) (n : Nat) (d : Dst) : (s.writeAt t n d).turns = s.turns := by simp [State.writeAt]
@[simp] theorem State.writeAt_detLast (t : Tid) (n : Nat) (d : Dst) : (s.writeAt t n d).detLast = s.detLast := by simp [State.writeAt]
@[simp] theorem State.writeAt_waits (t : Tid) (n : Nat) (d : Dst) : (s.writeAt t n d).waits = s.waits := by simp [State.writeAt]
@[simp] theorem State.writeAt_xbar (t : Tid) (n : Nat) (d : Dst) : (s.writeAt t n d).xbar = s.xbar := by simp [State.writeAt]
@[simp] theorem State.writeAt_ebb (t : Tid) (n : Nat) (d : Dst) : (s.writeAt t n d).ebb = s.ebb := by simp [State.writeAt]
@[simp] theorem State.writeAt_fabric (t : Tid) (n : Nat) (d : Dst) : (s.writeAt t n d).fabric = s.fabric := by simp [State.writeAt]
@[simp] theorem State.writeAt_host (t : Tid) (n : Nat) (d : Dst) : (s.writeAt t n d).host = s.host := by simp [State.writeAt]

/-! ### writeReg -/

@[simp] theorem State.writeReg_ticks (t : Tid) (n : Nat) (d : Dst) : (s.writeReg t n d).ticks = s.ticks := by simp [State.writeReg]
@[simp] theorem State.writeReg_swm (t : Tid) (n : Nat) (d : Dst) : (s.writeReg t n d).swm = s.swm := by simp [State.writeReg]
@[simp] theorem State.writeReg_swmSample (t : Tid) (n : Nat) (d : Dst) : (s.writeReg t n d).swmSample = s.swmSample := by simp [State.writeReg]
@[simp] theorem State.writeReg_mem (t : Tid) (n : Nat) (d : Dst) : (s.writeReg t n d).mem = s.mem := by simp [State.writeReg]
@[simp] theorem State.writeReg_cores (t : Tid) (n : Nat) (d : Dst) : (s.writeReg t n d).cores = s.cores := by simp [State.writeReg]
@[simp] theorem State.writeReg_rows (t : Tid) (n : Nat) (d : Dst) : (s.writeReg t n d).rows = s.rows := by simp [State.writeReg]
@[simp] theorem State.writeReg_ctxs (t : Tid) (n : Nat) (d : Dst) : (s.writeReg t n d).ctxs = s.ctxs := by simp [State.writeReg]
@[simp] theorem State.writeReg_kernels (t : Tid) (n : Nat) (d : Dst) : (s.writeReg t n d).kernels = s.kernels := by simp [State.writeReg]
@[simp] theorem State.writeReg_queues (t : Tid) (n : Nat) (d : Dst) : (s.writeReg t n d).queues = s.queues := by simp [State.writeReg]
@[simp] theorem State.writeReg_pkg (t : Tid) (n : Nat) (d : Dst) : (s.writeReg t n d).pkg = s.pkg := by simp [State.writeReg]
@[simp] theorem State.writeReg_qp (t : Tid) (n : Nat) (d : Dst) : (s.writeReg t n d).qp = s.qp := by simp [State.writeReg]
@[simp] theorem State.writeReg_quarantine (t : Tid) (n : Nat) (d : Dst) : (s.writeReg t n d).quarantine = s.quarantine := by simp [State.writeReg]
@[simp] theorem State.writeReg_ni (t : Tid) (n : Nat) (d : Dst) : (s.writeReg t n d).ni = s.ni := by simp [State.writeReg]
@[simp] theorem State.writeReg_rxe (t : Tid) (n : Nat) (d : Dst) : (s.writeReg t n d).rxe = s.rxe := by simp [State.writeReg]
@[simp] theorem State.writeReg_copies (t : Tid) (n : Nat) (d : Dst) : (s.writeReg t n d).copies = s.copies := by simp [State.writeReg]
@[simp] theorem State.writeReg_det (t : Tid) (n : Nat) (d : Dst) : (s.writeReg t n d).det = s.det := by simp [State.writeReg]
@[simp] theorem State.writeReg_turns (t : Tid) (n : Nat) (d : Dst) : (s.writeReg t n d).turns = s.turns := by simp [State.writeReg]
@[simp] theorem State.writeReg_detLast (t : Tid) (n : Nat) (d : Dst) : (s.writeReg t n d).detLast = s.detLast := by simp [State.writeReg]
@[simp] theorem State.writeReg_waits (t : Tid) (n : Nat) (d : Dst) : (s.writeReg t n d).waits = s.waits := by simp [State.writeReg]
@[simp] theorem State.writeReg_xbar (t : Tid) (n : Nat) (d : Dst) : (s.writeReg t n d).xbar = s.xbar := by simp [State.writeReg]
@[simp] theorem State.writeReg_ebb (t : Tid) (n : Nat) (d : Dst) : (s.writeReg t n d).ebb = s.ebb := by simp [State.writeReg]
@[simp] theorem State.writeReg_fabric (t : Tid) (n : Nat) (d : Dst) : (s.writeReg t n d).fabric = s.fabric := by simp [State.writeReg]
@[simp] theorem State.writeReg_host (t : Tid) (n : Nat) (d : Dst) : (s.writeReg t n d).host = s.host := by simp [State.writeReg]

/-! ### setFlags -/

@[simp] theorem State.setFlags_ticks (t : Tid) (n : Nat) (b : W64) : (s.setFlags t n b).ticks = s.ticks := by unfold State.setFlags; split <;> simp
@[simp] theorem State.setFlags_swm (t : Tid) (n : Nat) (b : W64) : (s.setFlags t n b).swm = s.swm := by unfold State.setFlags; split <;> simp
@[simp] theorem State.setFlags_swmSample (t : Tid) (n : Nat) (b : W64) : (s.setFlags t n b).swmSample = s.swmSample := by unfold State.setFlags; split <;> simp
@[simp] theorem State.setFlags_mem (t : Tid) (n : Nat) (b : W64) : (s.setFlags t n b).mem = s.mem := by unfold State.setFlags; split <;> simp
@[simp] theorem State.setFlags_cores (t : Tid) (n : Nat) (b : W64) : (s.setFlags t n b).cores = s.cores := by unfold State.setFlags; split <;> simp
@[simp] theorem State.setFlags_rows (t : Tid) (n : Nat) (b : W64) : (s.setFlags t n b).rows = s.rows := by unfold State.setFlags; split <;> simp
@[simp] theorem State.setFlags_ctxs (t : Tid) (n : Nat) (b : W64) : (s.setFlags t n b).ctxs = s.ctxs := by unfold State.setFlags; split <;> simp
@[simp] theorem State.setFlags_kernels (t : Tid) (n : Nat) (b : W64) : (s.setFlags t n b).kernels = s.kernels := by unfold State.setFlags; split <;> simp
@[simp] theorem State.setFlags_queues (t : Tid) (n : Nat) (b : W64) : (s.setFlags t n b).queues = s.queues := by unfold State.setFlags; split <;> simp
@[simp] theorem State.setFlags_pkg (t : Tid) (n : Nat) (b : W64) : (s.setFlags t n b).pkg = s.pkg := by unfold State.setFlags; split <;> simp
@[simp] theorem State.setFlags_qp (t : Tid) (n : Nat) (b : W64) : (s.setFlags t n b).qp = s.qp := by unfold State.setFlags; split <;> simp
@[simp] theorem State.setFlags_quarantine (t : Tid) (n : Nat) (b : W64) : (s.setFlags t n b).quarantine = s.quarantine := by unfold State.setFlags; split <;> simp
@[simp] theorem State.setFlags_ni (t : Tid) (n : Nat) (b : W64) : (s.setFlags t n b).ni = s.ni := by unfold State.setFlags; split <;> simp
@[simp] theorem State.setFlags_rxe (t : Tid) (n : Nat) (b : W64) : (s.setFlags t n b).rxe = s.rxe := by unfold State.setFlags; split <;> simp
@[simp] theorem State.setFlags_copies (t : Tid) (n : Nat) (b : W64) : (s.setFlags t n b).copies = s.copies := by unfold State.setFlags; split <;> simp
@[simp] theorem State.setFlags_det (t : Tid) (n : Nat) (b : W64) : (s.setFlags t n b).det = s.det := by unfold State.setFlags; split <;> simp
@[simp] theorem State.setFlags_turns (t : Tid) (n : Nat) (b : W64) : (s.setFlags t n b).turns = s.turns := by unfold State.setFlags; split <;> simp
@[simp] theorem State.setFlags_detLast (t : Tid) (n : Nat) (b : W64) : (s.setFlags t n b).detLast = s.detLast := by unfold State.setFlags; split <;> simp
@[simp] theorem State.setFlags_waits (t : Tid) (n : Nat) (b : W64) : (s.setFlags t n b).waits = s.waits := by unfold State.setFlags; split <;> simp
@[simp] theorem State.setFlags_xbar (t : Tid) (n : Nat) (b : W64) : (s.setFlags t n b).xbar = s.xbar := by unfold State.setFlags; split <;> simp
@[simp] theorem State.setFlags_ebb (t : Tid) (n : Nat) (b : W64) : (s.setFlags t n b).ebb = s.ebb := by unfold State.setFlags; split <;> simp
@[simp] theorem State.setFlags_fabric (t : Tid) (n : Nat) (b : W64) : (s.setFlags t n b).fabric = s.fabric := by unfold State.setFlags; split <;> simp
@[simp] theorem State.setFlags_host (t : Tid) (n : Nat) (b : W64) : (s.setFlags t n b).host = s.host := by unfold State.setFlags; split <;> simp

/-! ### park -/

@[simp] theorem State.park_ticks (t : Tid) (w : Wait) : (s.park t w).ticks = s.ticks := by simp [State.park]
@[simp] theorem State.park_swm (t : Tid) (w : Wait) : (s.park t w).swm = s.swm := by simp [State.park]
@[simp] theorem State.park_swmSample (t : Tid) (w : Wait) : (s.park t w).swmSample = s.swmSample := by simp [State.park]
@[simp] theorem State.park_mem (t : Tid) (w : Wait) : (s.park t w).mem = s.mem := by simp [State.park]
@[simp] theorem State.park_cores (t : Tid) (w : Wait) : (s.park t w).cores = s.cores := by simp [State.park]
@[simp] theorem State.park_rows (t : Tid) (w : Wait) : (s.park t w).rows = s.rows := by simp [State.park]
@[simp] theorem State.park_ctxs (t : Tid) (w : Wait) : (s.park t w).ctxs = s.ctxs := by simp [State.park]
@[simp] theorem State.park_kernels (t : Tid) (w : Wait) : (s.park t w).kernels = s.kernels := by simp [State.park]
@[simp] theorem State.park_queues (t : Tid) (w : Wait) : (s.park t w).queues = s.queues := by simp [State.park]
@[simp] theorem State.park_pkg (t : Tid) (w : Wait) : (s.park t w).pkg = s.pkg := by simp [State.park]
@[simp] theorem State.park_qp (t : Tid) (w : Wait) : (s.park t w).qp = s.qp := by simp [State.park]
@[simp] theorem State.park_quarantine (t : Tid) (w : Wait) : (s.park t w).quarantine = s.quarantine := by simp [State.park]
@[simp] theorem State.park_ni (t : Tid) (w : Wait) : (s.park t w).ni = s.ni := by simp [State.park]
@[simp] theorem State.park_rxe (t : Tid) (w : Wait) : (s.park t w).rxe = s.rxe := by simp [State.park]
@[simp] theorem State.park_copies (t : Tid) (w : Wait) : (s.park t w).copies = s.copies := by simp [State.park]
@[simp] theorem State.park_det (t : Tid) (w : Wait) : (s.park t w).det = s.det := by simp [State.park]
@[simp] theorem State.park_turns (t : Tid) (w : Wait) : (s.park t w).turns = s.turns := by simp [State.park]
@[simp] theorem State.park_detLast (t : Tid) (w : Wait) : (s.park t w).detLast = s.detLast := by simp [State.park]
@[simp] theorem State.park_waits (t : Tid) (w : Wait) : (s.park t w).waits = s.waits := by simp [State.park]
@[simp] theorem State.park_xbar (t : Tid) (w : Wait) : (s.park t w).xbar = s.xbar := by simp [State.park]
@[simp] theorem State.park_ebb (t : Tid) (w : Wait) : (s.park t w).ebb = s.ebb := by simp [State.park]
@[simp] theorem State.park_fabric (t : Tid) (w : Wait) : (s.park t w).fabric = s.fabric := by simp [State.park]
@[simp] theorem State.park_host (t : Tid) (w : Wait) : (s.park t w).host = s.host := by simp [State.park]
@[simp] theorem State.park_sched (t : Tid) (w : Wait) : (s.park t w).sched = s.sched := by simp [State.park]

/-! ### The thread written last -/

@[simp] theorem State.thread?_putThread (th : Thread) : (s.putThread th).thread? th.id = some th := by
  simp [State.thread?, State.putThread]

theorem State.thread?_putThread_of (th : Thread) {t : Tid} (h : t = th.id) : (s.putThread th).thread? t = some th := by
  rw [h, s.thread?_putThread]

theorem State.thread?_putThread_ne (th : Thread) {t : Tid} (h : tkey t ≠ tkey th.id) :
    (s.putThread th).thread? t = s.thread? t := by
  simp [State.thread?, State.putThread, Tab.find?_put, Ne.symm h]

@[simp] theorem State.ctx?_putThread (th : Thread) (a : Nat) : (s.putThread th).ctx? a = s.ctx? a := rfl
@[simp] theorem State.ctxOf_putThread (th u : Thread) : (s.putThread th).ctxOf u = s.ctxOf u := rfl
@[simp] theorem State.ctx?_issuedBy (th : Thread) (st : Stall) (o : Opnds) (a : Nat) :
    (s.issuedBy th st o).ctx? a = s.ctx? a := rfl
@[simp] theorem State.ctxOf_issuedBy (th u : Thread) (st : Stall) (o : Opnds) :
    (s.issuedBy th st o).ctxOf u = s.ctxOf u := rfl

@[simp] theorem State.modThread_putThread (th : Thread) (f : Thread → Thread) :
    (s.putThread th).modThread th.id f = (s.putThread th).putThread (f th) := by
  simp [State.modThread]

theorem State.putThread_putThread {th u : Thread} (h : u.id = th.id) : (s.putThread th).putThread u = s.putThread u := by
  simp [State.putThread, h, Tab.put_put]

theorem State.modThread_of {t : Tid} {th : Thread} (h : s.thread? t = some th) (f : Thread → Thread) :
    s.modThread t f = s.putThread (f th) := by
  simp [State.modThread, h]

end Sys2Proof.Machine
end

