-- ==== Sys2Proof/Tests/Slice0.lean ====
section
/-! SUPPORT. Tests: words of the spec's encodings, ill-formed terms, one step of each kind of instruction on small states, and a
concrete state for the hypotheses of each statement. -/

namespace Sys2Proof.Tests

open Sys2Proof Sys2Proof.Machine

-- Theorems are checked one after another: their kernel evaluations side by side would take more threads than a check has.
set_option Elab.async false


/-- Whether a word decodes to an instruction. -/
def decodesTo (w : W32) (i : Instr) : Bool := match decode w with | .ok j => decide (j = i) | .error _ => false
/-- Whether a word is no instruction. -/
def rejected (w : W32) : Bool := match decode w with | .ok _ => false | .error _ => true
theorem test_decode_ialu : ∀ p ∈ ([
    (0x410B1BF8, .add 1 5 70 127), (0x410B1BF9, .sub 1 5 70 127), (0x410B1BFA, .and 1 5 70 127),
    (0x410B1BFB, .or 1 5 70 127), (0x410B1BFC, .xor 1 5 70 127), (0x410B1BFD, .sll 1 5 70 127),
    (0x410B1BFE, .srl 1 5 70 127), (0x410B1BFF, .sra 1 5 70 127)] : List (W32 × Instr)),
    decodesTo p.1 p.2 = true := by
  decide +kernel

theorem test_decode_imul_icmp : ∀ p ∈ ([
    (0x420B1BF8, .mul 1 5 70 127), (0x420B1BF9, .mulh 1 5 70 127), (0x420B1BFA, .mulhu 1 5 70 127),
    (0x420B1BFB, .div 1 5 70 127), (0x420B1BFC, .divu 1 5 70 127), (0x420B1BFD, .rem 1 5 70 127),
    (0x420B1BFE, .remu 1 5 70 127), (0x430B1BF8, .slt 1 5 70 127), (0x430B1BF9, .sltu 1 5 70 127),
    (0x430B1BFA, .min 1 5 70 127), (0x430B1BFB, .max 1 5 70 127)] : List (W32 × Instr)),
    decodesTo p.1 p.2 = true := by
  decide +kernel

theorem test_decode_ibit : ∀ p ∈ ([
    (0x040B1800, .clz 0 5 70), (0x040B1801, .ctz 0 5 70), (0x040B1802, .popc 0 5 70),
    (0x840B1803, .sext 2 5 70 .b), (0x040A180B, .sext 0 5 6 .h), (0x040B1814, .zext 0 5 70 .w),
    (0x040B1BFD, .andn 0 5 70 127), (0x040B1BFE, .cmov 0 5 70 127)] : List (W32 × Instr)),
    decodesTo p.1 p.2 = true := by
  decide +kernel

theorem test_decode_immediates : ∀ p ∈ ([
    (0x450A17FF, .addi 1 5 5 (-1)), (0x060B1A00, .andi 0 5 70 0x200), (0x070B1BFF, .ori 0 5 70 0x3FF),
    (0x080B183F, .slli 0 5 70 63), (0x090B1821, .srli 0 5 70 33), (0x0A0E1C03, .srai 0 7 7 3),
    (0x0B0B0001, .li 0 5 0x10001), (0x0C0AFFFE, .lim 0 5 0xFFFE)] : List (W32 × Instr)),
    decodesTo p.1 p.2 = true := by
  decide +kernel

theorem test_decode_control : ∀ p ∈ ([
    (0x1011A001, .b 0 .eqz 70 0x2001), (0x1031A001, .b 0 .nez 70 0x2001), (0x1051A001, .b 0 .ltz 70 0x2001),
    (0x1071A001, .b 0 .gez 70 0x2001), (0x1091A001, .b 0 .gtz 70 0x2001), (0x10B1A001, .b 0 .lez 70 0x2001),
    (0x10D1A001, .b 0 .odd 70 0x2001), (0x10F1A001, .b 0 .even 70 0x2001), (0x1021FFFD, .b 0 .nez 7 0x3FFD),
    (0xD1118004, .dbnz 3 70 4), (0x12020040, .j 0 1 0x40), (0x130B1BFC, .jr 0 5 70 0x3FC),
    (0x13000400, .jr 0 0 1 0)] : List (W32 × Instr)),
    decodesTo p.1 p.2 = true := by
  decide +kernel

theorem test_decode_fps : ∀ p ∈ ([
    (0x140B1BF8, .faddS 0 5 70 127), (0x140B1BF9, .fsubS 0 5 70 127), (0x140B1BFA, .fmulS 0 5 70 127),
    (0x140B1BFB, .fdivS 0 5 70 127), (0x140B1804, .fsqrtS 0 5 70), (0x140B1BFD, .fminS 0 5 70 127),
    (0x140B1BFE, .fmaxS 0 5 70 127), (0x140B1BFF, .fmaS 0 5 70 127)] : List (W32 × Instr)),
    decodesTo p.1 p.2 = true := by
  decide +kernel

theorem test_decode_fpd : ∀ p ∈ ([
    (0x150B1BF8, .faddD 0 5 70 127), (0x150B1BF9, .fsubD 0 5 70 127), (0x150B1BFA, .fmulD 0 5 70 127),
    (0x150B1BFB, .fdivD 0 5 70 127), (0x150B1804, .fsqrtD 0 5 70), (0x150B1BFD, .fminD 0 5 70 127),
    (0x150B1BFE, .fmaxD 0 5 70 127), (0x150B1BFF, .fmaD 0 5 70 127)] : List (W32 × Instr)),
    decodesTo p.1 p.2 = true := by
  decide +kernel

theorem test_decode_fpc : ∀ p ∈ ([
    (0x160B1BF8, .fcmpS 0 5 70 127), (0x160B1BF9, .fcmpeS 0 5 70 127), (0x160B1BFA, .fcmpD 0 5 70 127),
    (0x160B1BFB, .fcmpeD 0 5 70 127), (0x160B180C, .fclass 0 5 70 .bf), (0x160A1B0D, .fcvt 0 5 6 .f32 .w true),
    (0x160B19D5, .fcvt 0 5 70 .du .bf16 false), (0x160B18FE, .fround 0 5 70 .dyn .d), (0x160B1886, .fround 0 5 70 .rmm .h),
    (0x160B1857, .fsgn 0 5 70 .nabs .s)] : List (W32 × Instr)),
    decodesTo p.1 p.2 = true := by
  decide +kernel

theorem test_decode_memory : ∀ p ∈ ([
    (0x180A0903, .ld 0 5 2 .w 3), (0x180B1B40, .ld 0 5 70 .wu 0x40), (0x190B1981, .st 0 5 70 .d 1),
    (0x1A0B1881, .lds 0 5 70 .take 1), (0x1A0B1900, .lds 0 5 70 .peek 0), (0x1B0B1881, .sts 0 5 70 .putempty 1),
    (0x1B011901, .sts 0 0 70 .clear 1), (0x1E0B1981, .ldaq 0 5 70 .pkg 1), (0x1F0B1A7F, .strl 0 5 70 .dom 0x7F)] : List (W32 × Instr)),
    decodesTo p.1 p.2 = true := by
  decide +kernel

theorem test_decode_atomics : ∀ p ∈ ([
    (0x1C0B1BF8, .amoAdd 0 5 70 127), (0x1C0B1BF9, .amoAnd 0 5 70 127), (0x1C0B1BFA, .amoOr 0 5 70 127),
    (0x1C0B1BFB, .amoXor 0 5 70 127), (0x1C0B1BFC, .amoMin 0 5 70 127), (0x1C0B1BFD, .amoMax 0 5 70 127),
    (0x1C0B1BFE, .amoSwap 0 5 70 127), (0x1C0B1BFF, .amoFadd 0 5 70 127), (0x1D0B1BF9, .cas 0 5 70 127 .w),
    (0x2000001B, .fence 0 .sc .pkg false false false), (0x200000A9, .fence 0 .load .core true false true)] : List (W32 × Instr)),
    decodesTo p.1 p.2 = true := by
  decide +kernel

theorem test_decode_vmem : ∀ p ∈ ([
    (0x2118443E, .vld 0 3 4 2 false 0x3E), (0x22F46241, .vst 0 30 70 1 true 1), (0x231FA327, .vldx 0 3 30 70 2 .h .d),
    (0x241FA37C, .vstx 0 3 30 70 7 .d .b)] : List (W32 × Instr)),
    decodesTo p.1 p.2 = true := by
  decide +kernel

theorem test_decode_vint : ∀ p ∈ ([
    (0x251FA340, .vadd 0 3 30 17 5 .i8), (0x251FA345, .vsub 0 3 30 17 5 .i16), (0x251FA34A, .vmul 0 3 30 17 5 .i32),
    (0x251FA34F, .vmin 0 3 30 17 5 .i64), (0x251FA350, .vmax 0 3 30 17 5 .i8), (0x251FA355, .vand 0 3 30 17 5 .i16),
    (0x251FA35A, .vor 0 3 30 17 5 .i32), (0x251FA35F, .vxor 0 3 30 17 5 .i64), (0x251FA360, .vsll 0 3 30 17 5 .i8),
    (0x251FA365, .vsrl 0 3 30 17 5 .i16), (0x251FA36A, .vsra 0 3 30 17 5 .i32)] : List (W32 × Instr)),
    decodesTo p.1 p.2 = true := by
  decide +kernel

theorem test_decode_vfp : ∀ p ∈ ([
    (0x261FA340, .vfadd 0 3 30 17 5 .f16), (0x261FA345, .vfsub 0 3 30 17 5 .bf16), (0x261FA34A, .vfmul 0 3 30 17 5 .f32),
    (0x261FA34F, .vfma 0 3 30 17 5 .f64), (0x261FA350, .vfmin 0 3 30 17 5 .f16), (0x261FA355, .vfmax 0 3 30 17 5 .bf16),
    (0x26594C1A, .vfcmp 0 3 .lt 5 6 0 .f32), (0x261F815E, .vfcvt 0 3 30 5 .f32 .f16)] : List (W32 × Instr)),
    decodesTo p.1 p.2 = true := by
  decide +kernel

theorem test_decode_vperm : ∀ p ∈ ([
    (0x271FA341, .vshuf 0 3 30 17 5 .i16), (0x2708800E, .vredadd 0 1 2 0 .f32), (0x271F8155, .vredmax 0 3 30 5 .bf16),
    (0x271FA35F, .vmerge 0 3 30 17 5 .f64), (0x271F8163, .vmask 0 3 30 5 .i64)] : List (W32 × Instr)),
    decodesTo p.1 p.2 = true := by
  decide +kernel

theorem test_decode_vxs : ∀ p ∈ ([
    (0x281C6800, .vbcast 0 3 70 .w), (0x28107854, .vext 0 7 2 .w 5), (0x281C63F8, .vins 0 3 70 .b 63),
    (0x2827F7DC, .vbcasti 0 4 (-3) .i16), (0x280E0A0D, .vbcasti 0 1 0x1820 .f32), (0x280E060E, .vbcasti 0 1 0x1820 .bf16),
    (0x29088630, .vsdot 0 1 2 3 12), (0x291F8119, .vscvt 0 3 30 70)] : List (W32 × Instr)),
    decodesTo p.1 p.2 = true := by
  decide +kernel

theorem test_decode_matrix : ∀ p ∈ ([
    (0x2A0B1BF8, .mxmac 0 5 70 127), (0x2A0B1BF9, .mxmul 0 5 70 127), (0x2A0B1802, .mxdrain 0 5 70),
    (0x2A0A0003, .mxzero 0 5), (0x2A0B1804, .acld 0 5 70), (0x2A0B1805, .acst 0 5 70),
    (0x2A0A0006, .mxcfg 0 5), (0x2A0B1807, .mxscl 0 5 70), (0x2B01180C, .fmtset 0 6 70),
    (0x2B0A000D, .fmtget 0 5 6)] : List (W32 × Instr)),
    decodesTo p.1 p.2 = true := by
  decide +kernel

theorem test_decode_messages : ∀ p ∈ ([
    (0x2C011800, .send 0 70), (0x2C011801, .recv 0 70), (0x2C0B1802, .probe 0 5 70),
    (0x2C011BFB, .mbwait 0 70 127), (0x2C011804, .mcast 0 70), (0x2D011800, .copy 0 70),
    (0x2D0B1BF9, .cwait 0 5 70 127), (0x2D011BFA, .cmap 0 70 127)] : List (W32 × Instr)),
    decodesTo p.1 p.2 = true := by
  decide +kernel

theorem test_decode_threads : ∀ p ∈ ([
    (0x2E121000, .spawn 0 9 4), (0x2E000001, .exit 0), (0x2E002802, .join 0 10),
    (0x2E002803, .leave 0 10), (0x2E00280C, .gbar 0 10 true), (0x2E002804, .gbar 0 10 false),
    (0x2E000025, .gang 0 .g4 .lead), (0x2E00002D, .gang 0 .g4 .follow), (0x2E000045, .gang 0 .g16 .lead),
    (0x2E003006, .split 0 12), (0x2E001C07, .vtadv 0 7), (0x2F102450, .topen 0 8 9 10),
    (0x2F160001, .tclose 0 11), (0x300A0001, .csrr 0 5 1), (0x31002420, .csrw 0 0 9 0x020),
    (0x3200002A, .trap 0 42), (0xF3000000, .tret 3)] : List (W32 × Instr)),
    decodesTo p.1 p.2 = true := by
  decide +kernel

/-- R95: words that are no instruction, one for each kind of reserved encoding. -/
theorem test_decode_reserved : ([
    0x02041807, 0x11200004, 0x00000000, 0xFFFFFFFF, 0x080A1840, 0x0C0B0000, 0x040A1808, 0x040A181B,
    0x180A1B80, 0x1E0A1800, 0x1B0A1900, 0x20000000, 0x21184040, 0x2508862C, 0x2608821D, 0x28082C84,
    0x2808200C, 0x2808200D, 0x160A18B6, 0x160A1805, 0x160A187D, 0x2E000055, 0x1D0A183A, 0x2C031800,
    0x33000400] : List W32).all rejected = true := by
  decide +kernel
/-! ### Ill-formed instructions are refused -/

/-- R92, R95: a conversion to its own format, a saturating one to a float, and .CLEAR with a register. -/
theorem test_wf_scalar :
    (Instr.fcvt 0 5 6 .w .w false).wf = false ∧ (Instr.fcvt 0 5 6 .w .f32 true).wf = false ∧ (Instr.fcvt 0 5 6 .w .f32 false).wf = true ∧
    (Instr.sts 0 5 6 .clear 0).wf = false ∧ (Instr.sts 0 0 6 .clear 0).wf = true := by decide +kernel

/-- R91, R95: a pair at an odd register, a conversion between equal precisions, a lane beyond its size, an immediate beyond a byte. -/
theorem test_wf_vector :
    (Instr.vld 0 3 6 0 true 0).wf = false ∧ (Instr.vst 0 3 6 0 true 0).wf = false ∧ (Instr.vld 0 2 6 0 true 0).wf = true ∧
    (Instr.vfcvt 0 1 2 0 .f32 .f32).wf = false ∧ (Instr.vext 0 5 2 .w 16).wf = false ∧ (Instr.vext 0 5 2 .w 15).wf = true ∧
    (Instr.vins 0 2 5 .d 8).wf = false ∧ (Instr.vbcasti 0 2 128 .i8).wf = false ∧ (Instr.vbcasti 0 2 (-128) .i8).wf = true := by
  decide +kernel

/-- R2, R8: an event of no slot, row, channel, queue, partition, port, link or lane of the package. -/
theorem test_wf_events :
    (Instr.overrun ⟨4608, 0⟩).wf = false ∧ (Instr.overrun ⟨0, 64⟩).wf = false ∧ (Instr.overrun ⟨4607, 63⟩).wf = true ∧
    (Instr.matrixStart 1152).wf = false ∧ (Instr.mapout 1152).wf = false ∧ (Instr.detAtomicApply 128).wf = false ∧
    (Instr.launch 64).wf = false ∧ (Instr.qcancel 64 0).wf = false ∧ (Instr.apply 32).wf = false ∧ (Instr.drain 6).wf = false ∧
    (Instr.linkFail 128).wf = false ∧ (Instr.laneReturn 127 8).wf = false ∧ (Instr.laneReturn 127 7).wf = true := by decide +kernel
/-! ### Helpers -/

/-- The machine s with one more thread, its context, and that thread at its issue. -/
def on (s : State) (th : Thread) (c : Ctx) : State :=
  { s with threads := (tkey th.id, th) :: s.threads, ctxs := [(th.asid, c)], kernels := [(0, Kernel.forWord)],
           sched := { s.sched with cur := some th.id } }

/-- The thread's window holds every register, its stall check is off, and the feature is accepted. -/
def fits (th : Thread) (c : Ctx) (feat : Option Nat) : Bool :=
  128 ≤ th.xsize && 32 ≤ th.vsize && !th.csr.chk && feat.all (bit c.features)

/-- A concrete state and thread meet P when an instruction with these operands issues. -/
def Meets (feat : Option Nat) (o : Opnds) (P : State → Thread → Ctx → Prop) : Prop :=
  ∃ s t th c, Issues s t th c feat o ∧ P s th c

theorem meets {feat : Option Nat} {o : Opnds} {P : State → Thread → Ctx → Prop} (s : State) (th : Thread) (c : Ctx)
    (h : fits th c feat = true) (p : P (on s th c) th c) : Meets feat o P := by
  simp only [fits, Bool.and_eq_true, decide_eq_true_eq, Bool.not_eq_true', Option.all_eq_true] at h
  refine ⟨on s th c, th.id, th, c, ⟨rfl, by simp [on, State.thread?, Tab.find?], by simp [on, State.ctx?, Tab.find?], ?_, ?_, ?_⟩, p⟩
  · intro f hf
    exact h.2 f hf
  · intro r _
    cases r with
    | x n => have := n.isLt; simp only [windowFault]; rw [if_neg (by omega)]
    | v n => have := n.isLt; simp only [windowFault]; rw [if_neg (by omega)]
    | m n => rfl
    | fm n => rfl
  · simp [h.1.2]

/-- A thread of core 0 with every register zero but those listed, on its own. -/
def th0 : Thread := Thread.forWord
def c0 : Ctx := Ctx.forWord
def s0 : State := State.reset
/-- A thread with values in some x registers. -/
def xs (l : List (XReg × W64)) (th : Thread := th0) : Thread := l.foldl (fun t p => t.setX p.1 p.2) th
/-- A thread with an FCSR. -/
def fcsr (v : W64) (th : Thread := th0) : Thread := { th with csr := { th.csr with fcsr := v } }
/-- A thread with a TVEC. -/
def tvec (v : W64) (th : Thread := th0) : Thread := { th with csr := { th.csr with tvec := v } }
/-- A follower of a leader on core 1. -/
def follower (th : Thread := th0) : Thread := { th with gang := .follower ⟨1, 0⟩ 1 [] }

/-! ### Witnesses: scalar integer instructions, control and traps -/

theorem witness_IntegerResults :
    Meets none (.dab 5 70 127 4) (fun _ _ _ => True) ∧ Meets none (.da 5 70 4) (fun _ _ _ => True) ∧
    Meets none (.ddab 5 70 127 4) (fun _ th _ => th.getX 127 ≠ 0) ∧ Meets none (.ddab 5 70 127 4) (fun _ th _ => th.getX 127 = 0) ∧
    Meets none (.dab 5 6 7 0) (fun _ th _ => ¬(th.getX 7 = 0 ∧ bit th.csr.fcsr 16 = true) ∧ th.getX 7 = 0) ∧
    Meets none (.dab 5 6 7 0) (fun _ th _ => ¬(th.getX 7 = 0 ∧ bit th.csr.fcsr 16 = true) ∧ th.getX 7 ≠ 0) ∧
    Meets none (.dab 5 6 7 0) (fun _ th _ => th.getX 7 = 0 ∧ bit th.csr.fcsr 16 = true) :=
  ⟨meets s0 th0 c0 rfl trivial, meets s0 th0 c0 rfl trivial, meets s0 (xs [(127, 1)]) c0 rfl (by decide +kernel),
   meets s0 th0 c0 rfl (by decide +kernel), meets s0 th0 c0 rfl (by decide +kernel),
   meets s0 (xs [(7, 3)]) c0 rfl (by decide +kernel), meets s0 (fcsr 0x10000) c0 rfl (by decide +kernel)⟩

theorem witness_MultiplyResults : Meets none (.dab 5 70 127 6) (fun _ _ _ => True) := meets s0 th0 c0 rfl trivial

theorem witness_ImmediateResults :
    Meets none (.da 5 70 4) (fun _ _ _ => True) ∧ Meets none (.d 5 4) (fun _ _ _ => True) ∧
    Meets none (.dd 5 4) (fun _ _ _ => True) ∧
    (∃ w : W32, w.extractLsb' 24 6 = 0x08 ∧ w.extractLsb' 6 4 ≠ 0) ∧
    (∃ w : W32, w.extractLsb' 24 6 = 0x0C ∧ w.getLsbD 16 = true) :=
  ⟨meets s0 th0 c0 rfl trivial, meets s0 th0 c0 rfl trivial, meets s0 th0 c0 rfl trivial,
   ⟨0x080A1840, by decide⟩, ⟨0x0C0B0000, by decide⟩⟩

/-- Each transfer, to the last loaded word, misaligned, and to the first word outside; and in a follower. -/
theorem witness_ControlTransfers :
    Meets none (.rd [6]) (fun _ th c => Statements.Transfers th (.b 0 .eqz 6 2) 0 (.rd [6]) 8 [] ∧
      th.isFollower = false ∧ c.loaded 8 = true) ∧
    Meets none (.dd 6 4) (fun _ th c => Statements.Transfers th (.dbnz 0 6 2) 0 (.dd 6 4) 8 [.x 6 (th.getX 6 - 1)] ∧
      th.isFollower = false ∧ c.loaded 8 = true) ∧
    Meets none (.d 1 4) (fun _ th _ => Statements.Transfers th (.j 0 1 2) 0 (.d 1 4) 8 [.x 1 4] ∧ th.isFollower = true) ∧
    Meets none (.da 1 6 4) (fun _ th c => Statements.Transfers th (.jr 0 1 6 0) 0 (.da 1 6 4) 0x3FFFC [.x 1 4] ∧
      th.isFollower = false ∧ c.loaded 0x3FFFC = true) ∧
    Meets none (.da 1 6 4) (fun _ th c => Statements.Transfers th (.jr 0 1 6 0) 0 (.da 1 6 4) 0x40000 [.x 1 4] ∧
      th.isFollower = false ∧ c.loaded 0x40000 = false) ∧
    Meets none (.da 1 6 4) (fun _ th _ => Statements.Transfers th (.jr 0 1 6 2) 0 (.da 1 6 4) 2 [.x 1 4] ∧
      th.isFollower = false) ∧
    Meets none .none (fun _ th _ => Statements.Transfers th (.tret 0) 0 .none 0 [] ∧ th.isFollower = false) ∧
    Meets none (.rd [6]) (fun _ th _ => ¬Statements.branchCond .nez (th.getX 6)) ∧
    Meets none (.dd 6 4) (fun _ th _ => th.getX 6 = 1) :=
  ⟨meets s0 th0 c0 rfl ⟨.b 0 .eqz 6 2 (by change th0.getX 6 = 0; decide +kernel), by decide +kernel⟩,
   meets s0 (xs [(6, 2)]) c0 rfl ⟨.dbnz 0 6 2 (by decide +kernel), by decide +kernel⟩,
   meets s0 (follower) c0 rfl ⟨.j 0 1 2, rfl⟩,
   meets s0 (xs [(6, 0x3FFFC)]) c0 rfl ⟨.jr 0 1 6 0, by decide +kernel⟩,
   meets s0 (xs [(6, 0x40000)]) c0 rfl ⟨.jr 0 1 6 0, by decide +kernel⟩,
   meets s0 th0 c0 rfl ⟨.jr 0 1 6 2, rfl⟩, meets s0 th0 c0 rfl ⟨.tret 0, rfl⟩,
   meets s0 th0 c0 rfl (by change ¬th0.getX 6 ≠ 0; decide +kernel), meets s0 (xs [(6, 1)]) c0 rfl (by decide +kernel)⟩

theorem witness_TrapInstruction :
    Meets none .none (fun s th _ => s.sched.cur = some th.id ∧ th.gang = .none ∧ th.csr.tvec.getLsbD 0 = true) ∧
    (∃ w : W32, w.extractLsb' 24 6 = 0x32 ∧ w.extractLsb' 10 14 ≠ 0) ∧
    (∃ w : W32, w.extractLsb' 24 6 = 0x32 ∧ w.extractLsb' 10 14 = 0) :=
  ⟨meets s0 (tvec 0x101) c0 rfl (by decide +kernel), ⟨0x32000400, by decide⟩, ⟨0x3200002A, by decide⟩⟩

theorem witness_TrapsAreTaken :
    (∃ (s : State) (t : Tid) (th : Thread) (k : Cause), s.thread? t = some th ∧ th.gang = .none ∧ th.csr.tvec.getLsbD 0 = true ∧
      k ≠ .protect ∧ k ≠ .noxlate ∧ k ≠ .handleroverrun) ∧
    (∃ (s : State) (t : Tid) (th : Thread) (c : Ctx), s.thread? t = some th ∧ th.id = t ∧ th.gang = .none ∧
      s.ctx? th.asid = some c ∧ c.phase = .live ∧ c.faults = [] ∧ th.csr.tvec.getLsbD 0 = false) :=
  ⟨⟨on s0 (tvec 1) c0, ⟨0, 0⟩, tvec 1, .illegal, rfl, rfl, by decide +kernel⟩,
   ⟨on s0 th0 c0, ⟨0, 0⟩, th0, c0, rfl, rfl, rfl, rfl, rfl, rfl, by decide +kernel⟩⟩

/-- A feature that is not accepted; x127 and v31 just outside the window; a pair that falls short. -/
theorem witness_ChecksBeforeIssue :
    (∃ (s : State) (t : Tid) (th : Thread) (c : Ctx), s.sched.cur = some t ∧ s.thread? t = some th ∧ s.ctx? th.asid = some c ∧
      c.features.getLsbD 0 = false) ∧
    (∃ (s : State) (t : Tid) (th : Thread) (c : Ctx), s.sched.cur = some t ∧ s.thread? t = some th ∧ s.ctx? th.asid = some c ∧
      windowFault th (.x 126) = none ∧ th.xsize ≤ (127 : XReg).toNat ∧ th.vsize ≤ (31 : VReg).toNat) ∧
    (∃ (s : State) (t : Tid) (th : Thread) (c : Ctx), s.sched.cur = some t ∧ s.thread? t = some th ∧ s.ctx? th.asid = some c ∧
      (∀ q ∈ [RegRef.x 5, .x 6], windowFault th q = none) ∧ th.csr.chk = true ∧ shortfall th (.x 5) = 0 ∧ 0 < shortfall th (.x 6)) :=
  ⟨⟨on s0 th0 { c0 with features := 0 }, ⟨0, 0⟩, th0, { c0 with features := 0 }, rfl, rfl, rfl, by decide +kernel⟩,
   ⟨on s0 { th0 with xsize := 127, vsize := 31 } c0, ⟨0, 0⟩, { th0 with xsize := 127, vsize := 31 }, c0, rfl, rfl, rfl, by decide +kernel⟩,
   ⟨on s0 { th0 with csr := { th0.csr with chk := true }, pairs := [(.x 6, 2)] } c0, ⟨0, 0⟩,
     { th0 with csr := { th0.csr with chk := true }, pairs := [(.x 6, 2)] }, c0, rfl, rfl, rfl, by decide +kernel⟩⟩

/-! ### One step on small states: results worked out from the rules -/

/-- The value that an instruction has pending for an x register of the issuing thread, and the flags. -/
def pendX (i : Instr) (th : Thread) (c : Ctx := c0) : Option (List Dst) :=
  match exec i (on s0 th c) with
  | .next s => (s.thread? th.id).map (fun u => u.pend.map (·.dst))
  | _ => none
/-- The issuing thread after an instruction. -/
def afterIt (i : Instr) (th : Thread) (c : Ctx := c0) (s : State := s0) : Option Thread :=
  match exec i (on s th c) with
  | .next s => s.thread? th.id
  | _ => none

/-- R105: sums wrap; SLT is signed and SLTU unsigned; shifts use six bits. -/
theorem test_integer_wraps :
    pendX (.add 0 5 6 7) (xs [(6, BitVec.allOnes 64), (7, 1)]) = some [.x 5 0] ∧
    pendX (.slt 0 5 6 7) (xs [(6, BitVec.allOnes 64), (7, 1)]) = some [.x 5 1] ∧
    pendX (.sltu 0 5 6 7) (xs [(6, BitVec.allOnes 64), (7, 1)]) = some [.x 5 0] ∧
    pendX (.sra 0 5 6 7) (xs [(6, 0x8000000000000000), (7, 0x7F)]) = some [.x 5 (BitVec.allOnes 64)] ∧
    pendX (.clz 0 5 6) (xs [(6, 1)]) = some [.x 5 63] ∧ pendX (.ctz 0 5 6) th0 = some [.x 5 64] ∧
    pendX (.sext 0 5 6 .b) (xs [(6, 0x180)]) = some [.x 5 0xFFFFFFFFFFFFFF80] ∧
    pendX (.zext 0 5 6 .h) (xs [(6, 0x18001)]) = some [.x 5 0x8001] ∧
    pendX (.andn 0 5 6 7) (xs [(6, 0xFF), (7, 0x0F)]) = some [.x 5 0xF0] := by decide +kernel

/-- R105: CMOV keeps xd when xb is zero; R106: the high half of −1 × −1 is 0 and of 2^63 × 2 unsigned is 1. -/
theorem test_cmov_and_products :
    pendX (.cmov 0 5 6 7) (xs [(5, 9), (6, 3)]) = some [.x 5 9] ∧ pendX (.cmov 0 5 6 7) (xs [(5, 9), (6, 3), (7, 1)]) = some [.x 5 3] ∧
    pendX (.mulh 0 5 6 7) (xs [(6, BitVec.allOnes 64), (7, BitVec.allOnes 64)]) = some [.x 5 0] ∧
    pendX (.mulhu 0 5 6 7) (xs [(6, 0x8000000000000000), (7, 2)]) = some [.x 5 1] := by decide +kernel

/-- R107: the least number by −1 wraps; a zero divisor leaves remainder xa. R108, R109: a sign-extended immediate; LIM shifts in. -/
theorem test_division_and_immediates :
    (afterIt (.div 0 5 6 7) (xs [(6, 0x8000000000000000), (7, BitVec.allOnes 64)])).map (·.run) =
      some (.parked (.divide 5 0x8000000000000000)) ∧
    (afterIt (.remu 0 5 6 7) (xs [(6, 77)])).map (·.run) = some (.parked (.divide 5 77)) ∧
    pendX (.addi 0 5 6 0x3FF) (xs [(6, 1)]) = some [.x 5 0] ∧ pendX (.ori 0 5 6 0x3FF) th0 = some [.x 5 0x3FF] ∧
    pendX (.li 0 5 0x1FFFF) th0 = some [.x 5 (BitVec.allOnes 64)] ∧
    pendX (.lim 0 5 0x1234) (xs [(5, 0xABCD)]) = some [.x 5 0xABCD1234] := by decide +kernel

/-- R77: x0 takes no write. R110: a taken branch counts words from the branch's own pc. -/
theorem test_x0_and_branches :
    (th0.setX 0 5).getX 0 = 0 ∧ (th0.setX 1 5).getX 1 = 5 ∧
    (afterIt (.b 0 .eqz 9 4) { th0 with pc := 0x100 }).map (·.pc) = some 0x110 ∧
    (afterIt (.b 0 .eqz 9 0x3FFF) { th0 with pc := 0x100 }).map (·.pc) = some 0xFC ∧
    (afterIt (.b 0 .nez 9 4) { th0 with pc := 0x100 }).map (·.pc) = some 0x104 := by decide +kernel

/-- R119, R120, R149: 1 + 2 = 3 in binary32, with the bits above it zero; 1.5 × −2 = −3 in binary64; 1 < 2 compares as −1; −1.5
rounds to the even −2 and raises NX, and a saturating conversion of 2^127 gives the greatest 32-bit number and raises NX. -/
theorem test_scalar_floats :
    pendX (.faddS 0 5 6 7) (xs [(6, 0xFFFFFFFF3F800000), (7, 0x40000000)]) = some [.x 5 0x40400000] ∧
    pendX (.fmulD 0 5 6 7) (xs [(6, 0x3FF8000000000000), (7, 0xC000000000000000)]) = some [.x 5 0xC008000000000000] ∧
    pendX (.fcmpS 0 5 6 7) (xs [(6, 0x3F800000), (7, 0x40000000)]) = some [.x 5 (BitVec.allOnes 64)] ∧
    pendX (.fcvt 0 5 6 .f32 .w false) (xs [(6, 0xBFC00000)]) = some [.x 5 0xFFFFFFFFFFFFFFFE, .flags 8] ∧
    pendX (.fcvt 0 5 6 .f32 .w true) (xs [(6, 0x7F000000)]) = some [.x 5 0x7FFFFFFF, .flags 8] := by decide +kernel

/-- The examples of R132 and R133: −1.0 to WU without and with .SAT, and 0x1_0000_0005 from D to W without and with .SAT. -/
theorem test_conversion_examples :
    pendX (.fcvt 0 5 6 .f32 .wu false) (xs [(6, 0xBF800000)]) = some [.x 5 0xFFFFFFFF, .flags 0x80] ∧
    pendX (.fcvt 0 5 6 .f32 .wu true) (xs [(6, 0xBF800000)]) = some [.x 5 0, .flags 8] ∧
    pendX (.fcvt 0 5 6 .d .w false) (xs [(6, 0x100000005)]) = some [.x 5 5] ∧
    pendX (.fcvt 0 5 6 .d .w true) (xs [(6, 0x100000005)]) = some [.x 5 0x7FFFFFFF] := by decide +kernel

/-- R214 to R216, R345: TRAP enters the handler at TVEC, and TEPC holds the pc of the TRAP. -/
theorem test_trap_enters_the_handler :
    (afterIt (.trap 0 42) { tvec 0x201 th0 with pc := 0x100 }).map (fun u => (u.pc, u.csr.tepc.toNat)) = some (0x200, 0x100) := by
  decide +kernel

/-- The check value of CRC-32C: the nine ASCII digits 1 to 9 (R417). -/
theorem test_crc_of_a_flit :
    crc32c [0x31, 0x32, 0x33, 0x34, 0x35, 0x36, 0x37, 0x38, 0x39] = 0xE3069283 := by decide +kernel

/-! ### Witnesses: floating point and vectors -/

/-- The three ends of R124: no enable, an enable without its flag, an enabled flag. FADD.S of 1 and 1, and of two
infinities of opposite sign. -/
theorem witness_ScalarFloatResults :
    Meets none (.dab 5 6 7 6) (fun _ th _ => th.enables = 0 ∧ ∃ v fl, Statements.scalarFloat th (.faddS 0 5 6 7) =
      some (0, .dab 5 6 7 6, 5, v, fl)) ∧
    Meets none (.dab 5 6 7 6) (fun _ th _ => th.enables ≠ 0 ∧ ∃ v fl, Statements.scalarFloat th (.faddS 0 5 6 7) =
      some (0, .dab 5 6 7 6, 5, v, fl) ∧ fl &&& th.enables = 0) ∧
    Meets none (.dab 5 6 7 6) (fun _ th _ => ∃ v fl, Statements.scalarFloat th (.faddS 0 5 6 7) =
      some (0, .dab 5 6 7 6, 5, v, fl) ∧ fl &&& th.enables ≠ 0) ∧
    Meets none (.ddab 5 6 7 8) (fun _ th _ => ∃ v fl, Statements.scalarFloat th (.fmaD 0 5 6 7) = some (0, .ddab 5 6 7 8, 5, v, fl)) ∧
    Meets none (.da 5 6 8) (fun _ th _ => ∃ v fl, Statements.scalarFloat th (.fround 0 5 6 .dyn .d) = some (0, .da 5 6 8, 5, v, fl)) ∧
    Meets none (.da 5 6 6) (fun _ th _ => ∃ v fl, Statements.scalarFloat th (.fcvt 0 5 6 .f32 .w true) = some (0, .da 5 6 6, 5, v, fl)) ∧
    Meets none (.dab 5 6 7 0) (fun _ _ _ => True) ∧ Meets none (.da 5 6 0) (fun _ _ _ => True) ∧
    Meets none (.da 5 6 (if FPrec.d = .d then 8 else 6)) (fun _ _ _ => True) ∧
    Meets none (.da 5 6 (if FPrec.h = .d then 8 else 6)) (fun _ _ _ => True) :=
  ⟨meets s0 (xs [(6, 0x3F800000), (7, 0x3F800000)]) c0 rfl ⟨by decide +kernel, _, _, rfl⟩,
   meets s0 (fcsr 0x1000 (xs [(6, 0x3F800000), (7, 0x3F800000)])) c0 rfl ⟨by decide +kernel, _, _, rfl, by decide +kernel⟩,
   meets s0 (fcsr 0x1F00 (xs [(6, 0x7F800000), (7, 0xFF800000)])) c0 rfl ⟨_, _, rfl, by decide +kernel⟩,
   meets s0 th0 c0 rfl ⟨_, _, rfl⟩, meets s0 th0 c0 rfl ⟨_, _, rfl⟩, meets s0 th0 c0 rfl ⟨_, _, rfl⟩,
   meets s0 th0 c0 rfl trivial, meets s0 th0 c0 rfl trivial, meets s0 th0 c0 rfl trivial, meets s0 th0 c0 rfl trivial⟩

/-- A tie of each mode: 3 halves. -/
theorem witness_RoundingChoosesTheModesNumber : (-1 : Int) < 0 ∧
    ([Rm.rne, .rtz, .rdn, .rup, .rmm].map (fun rm => roundAt rm false 3 (-1) false 0)) =
      [(2, true), (1, true), (1, true), (2, true), (2, true)] := by
  decide +kernel

theorem witness_VectorIntegerResults : Meets (some 0) (.vdab 3 30 17 5 4) (fun _ _ _ =>
    (Statements.vectorInt (.vadd 0 3 30 17 5 .i8)).isSome = true) := meets s0 th0 c0 rfl rfl

theorem witness_VectorFloatResults :
    Meets (some 0) (.vdab 3 30 17 5 8) (fun _ th _ => ∃ r, Statements.vectorFloat th (.vfadd 0 3 30 17 5 .f16) =
      some (0, .vdab 3 30 17 5 8, 3, 5, 16, r)) ∧
    Meets (some 0) (.vddab 3 30 17 5 8) (fun _ th _ => ∃ r, Statements.vectorFloat th (.vfma 0 3 30 17 5 .f64) =
      some (0, .vddab 3 30 17 5 8, 3, 5, 64, r)) ∧
    Meets (some 0) ⟨[.v 1, .v 2, .m 3], [.v 1, .v 2, .m 3], [.m 4], 8⟩ (fun _ _ _ => True) ∧
    Meets (some 0) (.vda 3 30 5 8) (fun _ _ _ => True) ∧
    Meets (some 0) ⟨[.v 1, .v 2, .v 3, .x 12], [.v 1, .v 2, .v 3, .x 12], [.v 1], 8⟩ (fun _ _ _ => True) ∧
    Meets (some 0) ⟨[.v 1, .v 2, .x 12], [.v 2, .x 12], [.v 1], 8⟩ (fun _ _ _ => True) :=
  ⟨meets s0 th0 c0 rfl ⟨_, rfl⟩, meets s0 th0 c0 rfl ⟨_, rfl⟩, meets s0 th0 c0 rfl trivial, meets s0 th0 c0 rfl trivial,
   meets s0 th0 c0 rfl trivial, meets s0 th0 c0 rfl trivial⟩

theorem witness_VectorReductions : Meets (some 0) (.vda 3 30 5 8) (fun _ _ _ => True) := meets s0 th0 c0 rfl trivial

theorem witness_VectorMoves :
    Meets (some 0) (.vdab 3 30 17 5 8) (fun _ _ _ => True) ∧
    Meets (some 0) ⟨[.v 1, .m 3], [.v 1, .m 3], [.m 4], 8⟩ (fun _ _ _ => True) ∧
    Meets (some 0) ⟨[.v 1, .x 12], [.x 12], [.v 1], 8⟩ (fun _ _ _ => True) ∧
    Meets (some 0) ⟨[.v 1, .x 12], [.v 1], [.x 12], 8⟩ (fun _ _ _ => (63 : BitVec 6).toNat < 512 / 8) ∧
    Meets (some 0) ⟨[.v 1, .x 12], [.v 1, .x 12], [.v 1], 8⟩ (fun _ _ _ => (7 : BitVec 6).toNat < 512 / 64) ∧
    Meets (some 0) ⟨[.v 1], [], [.v 1], 8⟩ (fun _ _ _ => True) :=
  ⟨meets s0 th0 c0 rfl trivial, meets s0 th0 c0 rfl trivial, meets s0 th0 c0 rfl trivial, meets s0 th0 c0 rfl (by decide),
   meets s0 th0 c0 rfl (by decide), meets s0 th0 c0 rfl trivial⟩

/-! ### Witnesses: memory -/

/-- A segment record (R316): pages p to p + n − 1, readable and writable. -/
def seg (p n : Nat) : W64 × W64 := (at_ p 12 ||| 7, at_ (p + n - 1) 12)
/-- A context with the first page of DRAM. -/
def c1 : Ctx := { c0 with segs := [seg 0 1] }
/-- A store-buffer entry for a doubleword at an address of DRAM. -/
def buffered (a : Nat) : StoreEntry :=
  { id := 0, parts := [{ addr := BitVec.ofNat 64 a, locs := (List.range 8).map (fun i => .dram (a + i)), op := .store 8 1,
                         out := false, sent := none, done := false, acked := false }],
    release := false, held := none, rel := false, sent := false, ownDue := 0, bounded := false, born := 0 }

theorem witness_AddressesThatViolateR40 :
    (0xFF8 : W64).getLsbD 63 = false ∧ (0xFF8 : W64).toNat / 2 ^ 61 % 4 = 0 ∧
    (0x3FFF00000002FFF8 : W64).getLsbD 63 = false ∧ (0x3FFF00000002FFF8 : W64).toNat / 2 ^ 61 % 4 = 1 ∧
    (0x6000000000000000 : W64).getLsbD 63 = false ∧ (0x6000000000000000 : W64).toNat / 2 ^ 61 % 4 = 3 := by
  decide

/-- The last doubleword of the segment, and the first past it; each class of access. -/
theorem witness_MemoryAccessesIssue :
    Meets none (.da 5 6 0) (fun s th c => Statements.loads th (.ld 0 5 6 .d 0) = some (0, 5, 6, 0xFF8, 8, false) ∧
      s.addrFault c th.id.core 0xFF8 8 true false .plain = none) ∧
    Meets none (.da 5 6 0) (fun s th c => Statements.loads th (.ld 0 5 6 .d 0) = some (0, 5, 6, 0x1000, 8, false) ∧
      s.addrFault c th.id.core 0x1000 8 true false .plain = some .protect) ∧
    Meets none (.rd [5, 6]) (fun s th c => Statements.stores th (.st 0 5 6 .w 0) =
        some (0, 5, 6, 0xFFC, 4, .store 4 0, .plain, false) ∧ s.addrFault c th.id.core 0xFFC 4 false true .plain = none ∧
        th.sbuf.length < 32) ∧
    Meets none (.rd [5, 6]) (fun s th c => (Statements.stores th (.sts 0 5 6 .fill 0)).isSome = true ∧
        s.addrFault c th.id.core 0xFF8 8 false true .fe = none ∧ 32 ≤ th.sbuf.length) ∧
    Meets none (.rd [5, 6]) (fun s th c => (Statements.stores th (.sts 0 5 6 .fill 0)).isSome = true ∧
        s.addrFault c th.id.core (th.getX 6) 8 false true .fe = some .align) ∧
    Meets none (.da 5 6 0) (fun s th c => (Statements.cellOps th (.lds 0 5 6 .take 0)).isSome = true ∧
        s.addrFault c th.id.core 0xFF8 8 true true .fe = none ∧ s.storesToCells th .take (locsOf c th.id.core 0xFF8 8) = true) ∧
    Meets none (.da 5 6 0) (fun s th c => (Statements.cellOps th (.lds 0 5 6 .take 0)).isSome = true ∧
        s.addrFault c th.id.core 0xFF8 8 true true .fe = none ∧ s.storesToCells th .take (locsOf c th.id.core 0xFF8 8) = false) ∧
    Meets none (.ddab 5 6 7 0) (fun s th c => (Statements.cellOps th (.cas 0 5 6 7 .w)).isSome = true ∧
        s.addrFault c th.id.core (th.getX 6) 4 true true .atomic = some .align) ∧
    Meets none (.dab 5 6 7 0) (fun s th c => s.addrFault c th.id.core (th.getX 6) 8 true true .atomic = none ∧
        ¬(th.csr.detlvl ≠ 0 ∧ (th.getX 6).getLsbD 63 = false ∧ (th.getX 6).toNat / 2 ^ 61 % 4 = 1) ∧
        s.storesToCells th (.amo .add (th.getX 7)) (locsOf c th.id.core (th.getX 6) 8) = false) ∧
    Meets none (.dab 5 6 7 0) (fun s th c => s.addrFault c th.id.core (th.getX 6) 8 true true .atomic = none ∧
        th.csr.detlvl ≠ 0 ∧ (th.getX 6).getLsbD 63 = false ∧ (th.getX 6).toNat / 2 ^ 61 % 4 = 1) ∧
    Meets none (.dab 5 6 7 0) (fun s th c => s.addrFault c th.id.core (th.getX 6) 8 true true .atomic = some .nopeer) ∧
    Meets none .none (fun s th _ => (∀ e ∈ th.sbuf, e.held ≠ none) ∧ s.copies = [] ∧ s.ni.sends = [] ∧ s.rows = []) ∧
    Meets none .none (fun _ th _ => ¬∀ e ∈ th.sbuf, e.held ≠ none) :=
  ⟨meets s0 (xs [(6, 0xFF8)]) c1 rfl (by decide +kernel), meets s0 (xs [(6, 0x1000)]) c1 rfl (by decide +kernel),
   meets s0 (xs [(6, 0xFFC)]) c1 rfl ⟨rfl, by decide +kernel⟩,
   meets s0 { xs [(6, 0xFF8)] with sbuf := List.replicate 32 (buffered 0) } c1 rfl (by decide +kernel),
   meets s0 (xs [(6, 0xFF4)]) c1 rfl (by decide +kernel),
   meets s0 { xs [(6, 0xFF8)] with sbuf := [buffered 0xFF8] } c1 rfl (by decide +kernel),
   meets s0 { xs [(6, 0xFF8)] with sbuf := [buffered 0xFF0] } c1 rfl (by decide +kernel),
   meets s0 (xs [(6, 2)]) c1 rfl (by decide +kernel), meets s0 (xs [(6, 8)]) c1 rfl (by decide +kernel),
   meets s0 { xs [(6, 0x3FFF00000002FFF8)] with csr := { th0.csr with detlvl := 1 } } c1 rfl (by decide +kernel),
   meets s0 (xs [(6, 0x8010000000000000)]) c1 rfl (by decide +kernel), meets s0 th0 c1 rfl (by decide +kernel),
   meets s0 { th0 with sbuf := [buffered 0] } c1 rfl (by decide +kernel)⟩

theorem witness_VectorMemoryAccesses :
    Meets (some 0) ⟨[.v 2, .v 3, .x 6, .m 1], [.x 6, .m 1], [.v 2, .v 3], 0⟩ (fun s th c =>
      s.blockFault c th.id.core 0xF80 128 false = none) ∧
    Meets (some 0) ⟨[.v 2, .v 3, .x 6, .m 1], [.x 6, .m 1], [.v 2, .v 3], 0⟩ (fun s th c =>
      s.blockFault c th.id.core 0xFC0 128 false = some .protect) ∧
    Meets (some 0) ⟨[.v 2, .x 6, .m 1], [.v 2, .x 6, .m 1], [], 0⟩ (fun s th c => s.blockFault c th.id.core 0xFC0 64 true = none) ∧
    Meets (some 0) ⟨[.v 2, .x 6, .m 1], [.v 2, .x 6, .m 1], [], 0⟩ (fun s th c =>
      s.blockFault c th.id.core 0xFE0 64 true ≠ none) ∧
    Meets (some 0) ⟨[.v 2, .v 3, .x 6, .m 1], [.v 3, .x 6, .m 1], [.v 2], 0⟩ (fun s th c =>
      s.lanesFault c th.id.core 1 false [0xFFF] = none ∧ s.lanesFault c th.id.core 1 false [0xFFF, 0x1000] = some (.protect, 0x1000)) ∧
    Meets (some 0) ⟨[.v 2, .v 3, .x 6, .m 1], [.v 2, .v 3, .x 6, .m 1], [], 0⟩ (fun s th c =>
      s.lanesFault c th.id.core 8 true [] = none) :=
  ⟨meets s0 th0 c1 rfl (by decide +kernel), meets s0 th0 c1 rfl (by decide +kernel), meets s0 th0 c1 rfl (by decide +kernel),
   meets s0 th0 c1 rfl (by decide +kernel), meets s0 th0 c1 rfl (by decide +kernel), meets s0 th0 c1 rfl (by decide +kernel)⟩

/-- A cell of DRAM that is full, empty, or poisoned. -/
def cell (full pois : Bool) : State :=
  { s0 with mem := { bytes := [(8, 5)], full := if full then [(1, true)] else [], poison := if pois then [(1, true)] else [], badCode := [] } }

theorem witness_AccessesAtTheirPlace :
    0 < 8 ∧ 8 % 8 + 8 ≤ 8 ∧ (cell true false).mem.isFull (8 / 8) = true ∧ (cell false false).mem.isFull (8 / 8) = false ∧
    (cell false true).mem.poisoned (8 / 8) = true ∧ (cell true false).mem.poisoned (8 / 8) = false ∧
    (BitVec.ofNat 64 (leNat ((List.range 8).map (fun i => (cell true false).mem.read (8 + i))))).toNat = (5 : W64).toNat % 2 ^ (8 * 8) := by
  decide +kernel

theorem witness_IssuingAnAccessLeavesMemory :
    (Statements.loads th0 (.ld 0 5 6 .d 0)).isSome = true ∧ (Statements.amos (.amoAdd 0 5 6 7)).isSome = true ∧
    ∃ s', exec (.ld 0 5 6 .d 0) (on s0 th0 c1) = .next s' :=
  ⟨rfl, rfl, _, rfl⟩

/-! ### Witnesses: matrix, messages and copies as they issue -/

/-- The own address of an offset of core 0's local store. -/
def own (off : Nat) : W64 := at_ 0x3FFF 48 ||| at_ off 0
/-- Memory that holds words from a key on. -/
def holding (k : Nat) (ws : List W64) : Memory := ({ bytes := [], full := [], poison := [], badCode := [] } : Memory).writeN k (wordBytes ws)
/-- A state whose core 0 holds words in its local store, and whose ranks 0 to 2 are of core 0. -/
def desc (off : Nat) (ws : List W64) : State :=
  { s0 with mem := holding (localKey 0 off) ws, ni := { s0.ni with ranks := (List.range 3).map (fun r => (r, at_ 1 24)) } }
/-- A thread whose format registers 0 and 1 hold SINT8. -/
def fms (th : Thread := th0) : Thread := (th.setF 0 0x80).setF 1 0x80
/-- A core whose barrier place is taken. -/
def waitingCore : CoreRec :=
  { CoreRec.fresh with arrival := some (⟨0, 1⟩, { fn := .zero, xa := 0, xb := 0, xc := 0, fmtA := 0, fmtB := 0, blk := [] }) }

/-- Whether a matrix instruction passes its checks, and what the first that fails answers. -/
def arrives? (s : State) (th : Thread) (i : Instr) : Bool :=
  match Statements.arrivals s th i with
  | some (_, _, _, f, _, met, g) => f.isNone && met.isEmpty && g.isNone
  | none => false
def arrivalFault (s : State) (th : Thread) (i : Instr) : Option (Cause × W64) := (Statements.arrivals s th i).bind (fun p => p.2.2.2.1)
def blockMet (s : State) (th : Thread) (i : Instr) : List Nat := ((Statements.arrivals s th i).map (fun p => p.2.2.2.2.2.1)).getD []
def blockBad (s : State) (th : Thread) (i : Instr) : Option (Cause × W64) := (Statements.arrivals s th i).bind (fun p => p.2.2.2.2.2.2)

/-- A core whose cell 0 is poisoned. -/
def poisoned0 (s : State) : State := { s with mem := { s.mem with poison := [(localKey 0 0 / 8, true)] } }
/-- A thread whose FCSR.PTE is set. -/
def pte (th : Thread := th0) : Thread := { th with csr := { th.csr with fcsr := 0x20000 } }

theorem witness_MatrixAndFormatInstructions :
    Meets (some 1) ⟨[.x 5, .x 6, .x 7], [.x 5, .x 6, .x 7, .fm 0, .fm 1], [], 0⟩ (fun s th _ =>
      arrives? s th (.mxmac 0 5 6 7) = true ∧ (s.core th.id.core).arrival = none) ∧
    Meets (some 1) ⟨[.x 5], [.x 5], [], 0⟩ (fun s th _ => arrives? s th (.mxzero 0 5) = true ∧ (s.core th.id.core).arrival ≠ none) ∧
    Meets (some 1) ⟨[.x 5], [.x 5], [], 0⟩ (fun s th _ => arrivalFault s th (.mxzero 0 5) = some (.illegal, 24)) ∧
    Meets (some 1) ⟨[.x 5], [.x 5], [], 0⟩ (fun s th _ => arrives? s th (.mxcfg 0 5) = true) ∧
    Meets (some 1) ⟨[.x 5, .x 6], [.x 5, .x 6], [], 0⟩ (fun s th _ => arrives? s th (.acld 0 5 6) = true ∧
      arrives? s th (.acst 0 5 6) = true ∧ arrives? s th (.mxscl 0 5 6) = true) ∧
    Meets (some 1) ⟨[.x 5, .x 6], [.x 5, .x 6], [], 0⟩ (fun s th _ =>
      arrivalFault s th (.mxscl 0 5 6) = some (.align, ownAddr 4)) ∧
    Meets (some 1) ⟨[.x 5, .x 6], [.x 5, .x 6, .fm 0], [], 0⟩ (fun s th _ => arrives? s th (.mxdrain 0 5 6) = true) ∧
    Meets (some 1) ⟨[.x 5, .x 6], [.x 5, .x 6, .fm 0], [], 0⟩ (fun s th _ =>
      arrivalFault s th (.mxdrain 0 5 6) = none ∧ blockMet s th (.mxdrain 0 5 6) ≠ [] ∧ th.csr.fcsr.getLsbD 17 = true) ∧
    Meets (some 1) ⟨[.x 5, .x 6], [.x 5, .x 6, .fm 0], [], 0⟩ (fun s th _ =>
      arrivalFault s th (.mxdrain 0 5 6) = none ∧ blockMet s th (.mxdrain 0 5 6) = [] ∧ (blockBad s th (.mxdrain 0 5 6)).isSome = true) ∧
    Meets (some 1) ⟨[.x 6], [.x 6], [.fm 0], 4⟩ (fun _ _ _ => True) ∧ Meets (some 1) ⟨[.x 6], [.fm 0], [.x 6], 4⟩ (fun _ _ _ => True) :=
  ⟨meets s0 (xs [(6, 0x40000), (7, 8)] fms) c0 rfl (by decide +kernel),
   meets { s0 with cores := [(0, waitingCore)] } th0 c0 rfl (by decide +kernel), meets s0 (xs [(5, 24)]) c0 rfl (by decide +kernel),
   meets s0 th0 c0 rfl (by decide +kernel), meets s0 th0 c0 rfl (by decide +kernel),
   meets s0 (xs [(5, 2), (6, 4)]) c0 rfl (by decide +kernel),
   meets (desc 0 [at_ 0x400 0 ||| at_ 32 18, 0, 0, 0, 0]) fms c0 rfl (by decide +kernel),
   meets (poisoned0 s0) (pte fms) c0 rfl (by decide +kernel),
   meets (desc 0 [at_ 0x404 0 ||| at_ 32 18, 0, 0, 0, 0]) fms c0 rfl (by decide +kernel),
   meets s0 th0 c0 rfl trivial, meets s0 th0 c0 rfl trivial⟩

theorem witness_SendingInstructions_words :
    ∃ (s : State) (th : Thread), th.sbuf = [] ∧ (s.core th.id.core).exch = 0 ∧ 8 % 8 = 0 := ⟨s0, th0, by decide +kernel⟩

/-- A SEND of 8 bytes from rank 1 to rank 2, one that starts at a wrong address, one whose descriptor is poisoned under PTE, one with
bound 0; a MCAST to ranks 0 and 2, one whose list is poisoned, one to a rank that does not exist. -/
theorem witness_SendingInstructions :
    Meets (some 2) (.rd [6]) (fun s th c =>
      Statements.descriptorGood s th (th.getX 6) 4 (fun w => s.sendFault c th.id.core (th.getX 6) w)) ∧
    Meets (some 2) (.rd [6]) (fun _ th _ => descFault th.id.core (th.getX 6) (8 * 4) = some .align) ∧
    Meets (some 2) (.rd [6]) (fun s th _ => descFault th.id.core (th.getX 6) (8 * 4) = none ∧
      (s.readWords th (fld (th.getX 6) 0 18) 4).2 ≠ [] ∧ th.csr.fcsr.getLsbD 17 = true) ∧
    Meets (some 2) (.rd [6]) (fun s th c => descFault th.id.core (th.getX 6) (8 * 4) = none ∧
      ¬((s.readWords th (fld (th.getX 6) 0 18) 4).2 ≠ [] ∧ th.csr.fcsr.getLsbD 17 = true) ∧
      s.sendFault c th.id.core (th.getX 6) (s.readWords th (fld (th.getX 6) 0 18) 4).1 = some (.illegal, th.getX 6)) ∧
    Meets (some 2) (.rd [6]) (fun s th c =>
      Statements.descriptorGood s th (th.getX 6) 5 (fun w => s.mcastFault c th.id.core (th.getX 6) w) ∧
      s.readList th 0x100 4 = ([0, 0, 2, 0], []) ∧
      s.destFault c th.id.core (th.getX 6) (s.readWords th (fld (th.getX 6) 0 18) 5).1 [0, 2] = none ∧
      s.destFault c th.id.core (th.getX 6) (s.readWords th (fld (th.getX 6) 0 18) 5).1 [0, 9] = some (.nopeer, at_ 9 0)) ∧
    Meets (some 2) (.rd [6]) (fun s th c =>
      Statements.descriptorGood s th (th.getX 6) 5 (fun w => s.mcastFault c th.id.core (th.getX 6) w) ∧
      (s.readList th 0 4).2 ≠ [] ∧ th.csr.fcsr.getLsbD 17 = true) :=
  ⟨meets (desc 0 [0, at_ 8 32, 2 ||| at_ 1 16, 1]) (xs [(6, own 0)]) c1 rfl (by unfold Statements.descriptorGood; decide +kernel),
   meets s0 (xs [(6, own 4)]) c1 rfl (by decide +kernel),
   meets (poisoned0 s0) (pte (xs [(6, own 0)])) c1 rfl (by decide +kernel),
   meets (desc 0 [0, at_ 8 32, 2 ||| at_ 1 16, 0]) (xs [(6, own 0)]) c1 rfl (by decide +kernel),
   meets { desc 0 [0, at_ 8 32, at_ 2 25, own 0x100, at_ 1 32] with mem :=
     (holding (localKey 0 0) [0, at_ 8 32, at_ 2 25, own 0x100, at_ 1 32]).writeN (localKey 0 0x100) [0, 0, 2, 0] }
     (xs [(6, own 0)]) c1 rfl (by unfold Statements.descriptorGood; decide +kernel),
   meets (poisoned0 (desc 0x40 [0, at_ 8 32, at_ 2 25, own 0, at_ 1 32])) (pte (xs [(6, own 0x40)])) c1 rfl (by unfold Statements.descriptorGood; decide +kernel)⟩

/-- A header from rank 1 to rank 2 with a tag. -/
def hdr (tag : W32) (seq : Nat := 0) (src : Nat := 5) : Header :=
  { asid := 1, srcPeer := src, drank := 2, srank := 1, tag := tag, stamp := 0, seq := seq, len := 8, kind := .eager, saddr := 0,
    tid := ⟨0, 0⟩, cmbox := 0, sendId := 9, expires := 100, units := [], via := none, payload := List.replicate 8 0,
    target := 0, born := 0, pois := [] }
/-- A receive of rank 2 for a tag. -/
def recv (tag : W32) : Recv :=
  { asid := 1, core := 0, dest := 0, tag := tag, tmask := 0xFFFFFFFF, src := 0, smask := 0, drank := 2, mbox := 0, fill := false,
    maxlen := 8, desc := own 0, writer := 0, kernel := 0, views := [] }
/-- The descriptor of a RECV of rank 2 for tag 7. -/
def recvDesc : State := desc 0 [0, 7 ||| at_ 0xFFFFFFFF 32, at_ 2 32, 8, 0, 0]

/-- A thread that waits under number 7 for its match unit. -/
def asking (ask : RxeAsk) : Thread := { th0 with run := .parked (.rxe 7 ask) }
/-- The first thread that waits under a number, and what stands with it. -/
def Asks (s : State) (ask : RxeAsk) (P : State → Thread → Prop) : Prop :=
  ∃ th, s.asker? 7 = some (th, ask) ∧ s.thread? th.id = some th ∧ P s th
theorem asks {ask : RxeAsk} {P : State → Thread → Prop} (s : State) (p : P (on s (asking ask) c1) (asking ask)) :
    Asks (on s (asking ask) c1) ask P := ⟨asking ask, rfl, rfl, p⟩

theorem witness_ReceivingInstructions :
    Meets (some 2) (.rd [6]) (fun s th c =>
      Statements.descriptorGood s th (th.getX 6) 6 (fun w => s.recvFault c th.id.core (th.getX 6) w (recvOf c th (th.getX 6) w) false)) ∧
    Meets (some 2) (.da 5 6 0) (fun s th c =>
      Statements.descriptorGood s th (th.getX 6) 6 (fun w => s.recvFault c th.id.core (th.getX 6) w (recvOf c th (th.getX 6) w) true)) ∧
    (∃ s, Asks s (.recv (recv 7)) (fun s _ => s.ticks < s.rxe.busy.getD (dieOf 0) 0)) ∧
    (∃ s, Asks s (.recv (recv 7)) (fun s th => s.rxe.busy.getD (dieOf 0) 0 ≤ s.ticks ∧
      s.findMessage (s.ctxOf th) (recv 7) = some (hdr 7 1))) ∧
    (∃ s, Asks s (.recv (recv 7)) (fun s th => s.rxe.busy.getD (dieOf 0) 0 ≤ s.ticks ∧
      s.findMessage (s.ctxOf th) (recv 7) = none ∧ s.rxe.posted.length < 4096)) ∧
    (∃ s : State, 4096 ≤ s.rxe.posted.length ∧ s.rxe.unexp = []) ∧
    (∃ s, Asks s (.probe 5 (recv 7)) (fun s _ => s.rxe.busy.getD (dieOf 0) 0 ≤ s.ticks)) ∧
    (∃ s, Asks s (.done none 0) (fun _ _ => True)) ∧ (∃ s, Asks s (.done (some 5) 8) (fun _ _ => True)) ∧
    (∃ s, Asks s (.full (own 0)) (fun _ th => th.ovr = false)) ∧
    Meets (some 2) (.rd [5, 6]) (fun _ th _ => 256 ≤ (th.getX 5).toNat) ∧
    Meets (some 2) (.rd [5, 6]) (fun _ th _ => (th.getX 5).toNat < 256 ∧ 2 ^ 32 ≤ (th.getX 6).toNat) ∧
    Meets (some 2) (.rd [5, 6]) (fun _ th _ => (th.getX 5).toNat < 256 ∧ th.getX 6 = 0) ∧
    Meets (some 2) (.rd [5, 6]) (fun _ th _ => (th.getX 5).toNat < 256 ∧ (th.getX 6).toNat < 2 ^ 32 ∧ th.getX 6 ≠ 0) :=
  ⟨meets recvDesc (xs [(6, own 0)]) c1 rfl (by unfold Statements.descriptorGood; decide +kernel), meets recvDesc (xs [(6, own 0)]) c1 rfl (by unfold Statements.descriptorGood; decide +kernel),
   ⟨_, asks { s0 with rxe := { s0.rxe with busy := [(0, 5)] } } (by decide +kernel)⟩,
   ⟨_, asks { recvDesc with rxe := { recvDesc.rxe with unexp := [hdr 3, hdr 7 1] } } (by decide +kernel)⟩,
   ⟨_, asks { recvDesc with rxe := { recvDesc.rxe with unexp := [hdr 3] } } (by decide +kernel)⟩,
   ⟨{ s0 with rxe := { s0.rxe with posted := List.replicate 4096 (recv 7) } }, Nat.le_of_eq (List.length_replicate ..).symm, rfl⟩,
   ⟨_, asks s0 (by decide +kernel)⟩, ⟨_, asks s0 trivial⟩, ⟨_, asks s0 trivial⟩, ⟨_, asks s0 rfl⟩,
   meets s0 (xs [(5, 256)]) c1 rfl (by decide +kernel), meets s0 (xs [(5, 255), (6, 0x100000000)]) c1 rfl (by decide +kernel),
   meets s0 (xs [(5, 255)]) c1 rfl (by decide +kernel), meets s0 (xs [(5, 255), (6, 0xFFFFFFFF)]) c1 rfl (by decide +kernel)⟩

/-- A copy of 512 bytes from DRAM to the local store. -/
def copyDesc : State := desc 0x400 [0, own 0, 512, 0, 0]
/-- A chunk map with chunk 0 landed and chunk 1 poisoned. -/
def mapCore : CoreRec :=
  { CoreRec.fresh with maps := [(0, { ChunkMap.zero with landed := 1, poisoned := 2, lastTick := 9 })] }
/-- A copy under way. -/
def copyReq (id : Nat) : CopyReq :=
  { copyOf c1 th0 [0, own 0, 512, 0, 0] with id := id, chunks := [0] }

theorem witness_CopyInstructions :
    Meets (some 3) (.rd [5]) (fun s th c => s.copiesOf th.id.core < 64 ∧
      Statements.descriptorGood s th (th.getX 5) 5 (fun w => s.copyFault c th.id.core (th.getX 5) w (copyOf c th w))) ∧
    Meets (some 3) (.rd [5]) (fun s th c => 64 ≤ s.copiesOf th.id.core ∧
      Statements.descriptorGood s th (th.getX 5) 5 (fun w => s.copyFault c th.id.core (th.getX 5) w (copyOf c th w))) ∧
    Meets (some 3) (.dab 5 6 7 0) (fun _ th _ => 16 ≤ (th.getX 6).toNat) ∧
    Meets (some 3) (.dab 5 6 7 0) (fun s th _ => (th.getX 6).toNat < 16 ∧
      ((s.chunkMap 0 0).landed ||| (s.chunkMap 0 0).poisoned) &&& th.getX 7 = th.getX 7) ∧
    Meets (some 3) (.dab 5 6 7 0) (fun s th _ => (th.getX 6).toNat < 16 ∧
      ((s.chunkMap 0 0).landed ||| (s.chunkMap 0 0).poisoned) &&& th.getX 7 ≠ th.getX 7) ∧
    Meets (some 3) (.rd [5, 6]) (fun _ th _ => 16 ≤ (th.getX 5).toNat) ∧
    Meets (some 3) (.rd [5, 6]) (fun _ th _ => (th.getX 5).toNat < 16 ∧ 384 ≤ (th.getX 6).toNat) ∧
    Meets (some 3) (.rd [5, 6]) (fun s th _ => (th.getX 5).toNat < 16 ∧ (th.getX 6).toNat < 384 ∧
      (s.chunkMap 0 (th.getX 5).toNat).lastTick ≠ s.ticks) :=
  ⟨meets copyDesc (xs [(5, own 0x400)]) c1 rfl (by unfold Statements.descriptorGood; decide +kernel),
   meets { copyDesc with copies := List.replicate 64 (copyReq 0) } (xs [(5, own 0x400)]) c1 rfl (by unfold Statements.descriptorGood; decide +kernel),
   meets s0 (xs [(6, 16)]) c1 rfl (by decide +kernel), meets { s0 with cores := [(0, mapCore)] } (xs [(7, 3)]) c1 rfl (by decide +kernel),
   meets { s0 with cores := [(0, mapCore)] } (xs [(7, 7)]) c1 rfl (by decide +kernel),
   meets s0 (xs [(5, 16)]) c1 rfl (by decide +kernel), meets s0 (xs [(5, 15), (6, 384)]) c1 rfl (by decide +kernel),
   meets { s0 with cores := [(0, mapCore)] } (xs [(6, 383)]) c1 rfl (by decide +kernel)⟩

/-- The descriptor of a MCAST by bitmap. -/
def bitmapWords : List W64 := [0, at_ 8 32, at_ 1 24, own 0x100, at_ 1 32]
/-- A MCAST by bitmap whose first byte is b and whose other bytes are zero. -/
def bitmapState (b : Byte) : State :=
  on { desc 0 bitmapWords with mem := (holding (localKey 0 0) bitmapWords).write (localKey 0 0x100) b } (xs [(6, own 0)]) c1

theorem clean_load (s : State) (th : Thread) (o : Nat) (hi : th.id.core = 0) (hs : s.bufferOf th = [])
    (he : (s.core 0).exch = 0) (hp : ∀ a, s.mem.poisoned a = false) :
    s.loadFwd th [.store 0 o] = (BitVec.ofNat 64 (s.mem.read (localKey 0 o)).toNat, []) := by
  have hz : ∀ x : List Nat, x.filter s.mem.poisoned = [] := by
    intro x; rw [List.filter_eq_nil_iff]; intro a _; simp [hp]
  simp only [State.loadFwd, hs, hz, List.isEmpty_nil, if_true, List.map_cons, List.map_nil, State.oneName, hi,
    forwardByte, List.foldl_nil, State.ploc, CoreRec.physOff, he, Memory.readP]
  simp [leNat]

theorem bitmap_read (b : Byte) (h : (bitmapState b).mem.bytes.getD (localKey 0 0x100) 0 = b)
    (hr : (bitmapState b).mem.bytes.all (fun e => e.1 ≤ localKey 0 0x100) = true) (hp : (bitmapState b).mem.poison = []) :
    ∃ l : List Byte, (bitmapState b).readList (xs [(6, own 0)]) 0x100 576 = (l, []) ∧
      ∀ n, l.getD n 0 = if n = 0 then b else 0 := by
  have hi : (xs [(6, own 0)]).id.core = 0 := by decide +kernel
  have hs : (bitmapState b).bufferOf (xs [(6, own 0)]) = [] := rfl
  have he : ((bitmapState b).core 0).exch = 0 := rfl
  have hm : ∀ i, (bitmapState b).mem.read (localKey 0 (0x100 + i)) = if i = 0 then b else 0 := by
    intro i
    simp only [Memory.read, Memory.poisoned, Memory.byte, hp, Tab.getD, Tab.find?]
    by_cases h0 : i = 0
    · subst h0; simpa [Tab.getD] using h
    · rw [if_neg h0]
      generalize (bitmapState b).mem.bytes = m at hr
      have : Tab.find? m (localKey 0 (0x100 + i)) = none := by
        induction m with
        | nil => rfl
        | cons e r ih =>
          simp only [List.all_cons, Bool.and_eq_true, decide_eq_true_eq] at hr
          have : e.1 ≠ localKey 0 (0x100 + i) := by have := hr.1; simp only [localKey] at this ⊢; omega
          rw [Tab.find?, if_neg this, ih hr.2]
      simp [this]
  have hf : ∀ o, (bitmapState b).loadFwd (xs [(6, own 0)]) [.store (xs [(6, own 0)]).id.core o] =
      (BitVec.ofNat 64 ((bitmapState b).mem.read (localKey 0 o)).toNat, []) := by
    intro o
    rw [hi]
    exact clean_load _ _ o hi hs he (fun a => by simp [Memory.poisoned, hp, Tab.getD, Tab.find?])
  suffices key : ((bitmapState b).readList (xs [(6, own 0)]) 0x100 576).2 = [] ∧
      ∀ n, ((bitmapState b).readList (xs [(6, own 0)]) 0x100 576).1.getD n 0 = if n = 0 then b else 0 by
    revert key
    generalize (bitmapState b).readList (xs [(6, own 0)]) 0x100 576 = x
    obtain ⟨l, p⟩ := x
    rintro ⟨rfl, h⟩
    exact ⟨l, rfl, h⟩
  refine ⟨?_, ?_⟩
  · simp only [State.readList]
    rw [List.filter_eq_nil_iff.mpr]
    · rfl
    · intro x hx
      obtain ⟨i, _, rfl⟩ := List.mem_map.mp hx
      simp only [hf, List.isEmpty_nil]; decide
  · intro n
    simp only [State.readList, hf, List.map_map]
    rw [List.getD_eq_getElem?_getD, List.getElem?_map]
    by_cases hn : n < 576
    · rw [List.getElem?_range hn]
      simp only [Option.map_some, Option.getD_some, Function.comp, hm]
      have hb : BitVec.ofNat 8 (b.toNat % 18446744073709551616) = b := by
        apply BitVec.eq_of_toNat_eq; simp only [BitVec.toNat_ofNat]; omega
      by_cases h0 : n = 0 <;> simp [h0, hb]
    · rw [List.getElem?_eq_none (by simpa using hn)]
      rw [if_neg (by omega)]; rfl

/-- A MCAST by bitmap that names no core, and one that names core 0. -/
theorem witness_SendingInstructions_bitmap (dests : List Nat) (hd : dests = [] ∨ dests = [0]) :
    Meets (some 2) (.rd [6]) (fun s th c =>
      Statements.descriptorGood s th (th.getX 6) 5 (fun w => s.mcastFault c th.id.core (th.getX 6) w) ∧
      ∃ l, s.readList th 0x100 576 = (l, []) ∧
        (List.range Config.cores).filter (fun k => (l.getD (k / 8) 0).getLsbD (k % 8)) = dests ∧
        s.destFault c th.id.core (th.getX 6) (s.readWords th (fld (th.getX 6) 0 18) 5).1 dests = none) := by
  rcases hd with rfl | rfl
  · refine meets { desc 0 bitmapWords with mem := (holding (localKey 0 0) bitmapWords).write (localKey 0 0x100) 0 } (xs [(6, own 0)]) c1 rfl
      ⟨by unfold Statements.descriptorGood; decide +kernel, ?_⟩
    obtain ⟨l, h1, h2⟩ := bitmap_read 0 (by decide +kernel) (by decide +kernel) (by decide +kernel)
    refine ⟨l, h1, ?_, by decide +kernel⟩
    rw [List.filter_eq_nil_iff]
    intro k _
    rw [h2]; simp
  · refine meets { desc 0 bitmapWords with mem := (holding (localKey 0 0) bitmapWords).write (localKey 0 0x100) 1 } (xs [(6, own 0)])
      { c1 with rows := [0] } rfl ⟨by unfold Statements.descriptorGood; decide +kernel, ?_⟩
    obtain ⟨l, h1, h2⟩ := bitmap_read 1 (by decide +kernel) (by decide +kernel) (by decide +kernel)
    refine ⟨l, h1, ?_, by decide +kernel⟩
    rw [show Config.cores = 4607 + 1 from rfl, List.range_succ_eq_map, List.filter_cons, if_pos (by rw [h2]; decide), List.filter_map]
    have : (List.range 4607).filter ((fun k => (l.getD (k / 8) 0).getLsbD (k % 8)) ∘ Nat.succ) = [] := by
      rw [List.filter_eq_nil_iff]
      intro k _
      simp only [Function.comp, h2]
      split
      · have h7 : ∀ k < 7, ¬BitVec.getLsbD (1 : Byte) (k.succ % 8) = true := by decide
        exact h7 k (by simp only [Nat.succ_eq_add_one] at *; omega)
      · simp
    rw [this]; rfl

/-! ### Witnesses: threads, groups, gangs, regions and control registers -/

/-- An open region, opened at tick 0. -/
def region (hnd : Bool := false) : Region := { openTick := 0, min := 5, max := 1000, hold := false, hnd := hnd, desc := 0x20 }
/-- A thread with open regions. -/
def inside (n : Nat := 1) (th : Thread := th0) : Thread := { th with regions := List.replicate n (region) }

theorem witness_SpawnAndExit :
    Meets none (.da 5 6 0) (fun _ th c => ¬(th.getX 6).getLsbD 63 = true ∧ fld (th.getX 6) 61 2 = 1 ∧
      protectFault c th.id.core (th.getX 6) 72 true false = false ∧ (th.getX 6).toNat % 8 = 0) ∧
    Meets none (.da 5 6 0) (fun _ th c => protectFault c th.id.core (th.getX 6) 72 true false = true) ∧
    Meets none (.da 5 6 0) (fun _ th c => ¬(th.getX 6).getLsbD 63 = true ∧ fld (th.getX 6) 61 2 = 1 ∧
      protectFault c th.id.core (th.getX 6) 72 true false = false ∧ (th.getX 6).toNat % 8 ≠ 0) ∧
    Meets none .none (fun _ th _ => th.regions ≠ []) ∧ Meets none .none (fun _ th _ => th.regions = []) :=
  ⟨meets s0 (xs [(6, own 0x2FFB8)]) c0 rfl (by decide +kernel), meets s0 (xs [(6, own 0x2FFC0)]) c0 rfl (by decide +kernel),
   meets s0 (xs [(6, own 4)]) c0 rfl (by decide +kernel), meets s0 (inside) c0 rfl (by decide +kernel),
   meets s0 th0 c0 rfl (by decide +kernel)⟩

/-- A state whose core 0 holds memberships, and whose context has an open tide phase of group 4,095. -/
def members (l : List Member) : State := { s0 with cores := [(0, { CoreRec.fresh with members := l })] }
def openGroup : Ctx := { c0 with groups := [(4095, { Group.closed with isOpen := true, tide := true })] }
def mine (s : State) (th : Thread) : List Member := (s.core th.id.core).members.filter (fun m => m.slot == th.id.slot)

theorem witness_GroupInstructions :
    Meets none (.rd [6]) (fun _ th _ => 4095 < (th.getX 6).toNat) ∧
    Meets none (.rd [6]) (fun s th _ => (th.getX 6).toNat ≤ 4095 ∧ ∃ m ∈ mine s th, m.group = (th.getX 6).toNat) ∧
    Meets none (.rd [6]) (fun s th _ => (th.getX 6).toNat ≤ 4095 ∧ (¬∃ m ∈ mine s th, m.group = (th.getX 6).toNat) ∧
      8 ≤ (mine s th).length) ∧
    Meets none (.rd [6]) (fun s th _ => (th.getX 6).toNat ≤ 4095 ∧ (¬∃ m ∈ mine s th, m.group = (th.getX 6).toNat) ∧
      (mine s th).length < 8 ∧ (s.core th.id.core).members.length < 128) ∧
    Meets none (.rd [6]) (fun s th _ => ∃ m, (th.getX 6).toNat ≤ 4095 ∧
      (mine s th).find? (fun m => m.group == (th.getX 6).toNat) = some m ∧ m.pending = false ∧
      (s.group th.asid (th.getX 6).toNat).isOpen = true ∧ (s.group th.asid (th.getX 6).toNat).tide ≠ false) ∧
    Meets none (.rd [6]) (fun s th _ => ∃ m, (th.getX 6).toNat ≤ 4095 ∧
      (mine s th).find? (fun m => m.group == (th.getX 6).toNat) = some m ∧ (s.group th.asid (th.getX 6).toNat).isOpen = false) :=
  ⟨meets s0 (xs [(6, 4096)]) c0 rfl (by decide +kernel),
   meets (members [⟨4095, 0, false, 0⟩]) (xs [(6, 4095)]) c0 rfl (by decide +kernel),
   meets (members (List.replicate 8 ⟨7, 0, false, 0⟩)) (xs [(6, 4095)]) c0 rfl (by decide +kernel),
   meets (members (List.replicate 7 ⟨7, 0, false, 0⟩)) (xs [(6, 4095)]) c0 rfl (by decide +kernel),
   meets (members [⟨4095, 0, false, 0⟩]) (xs [(6, 4095)]) openGroup rfl ⟨⟨4095, 0, false, 0⟩, by decide +kernel⟩,
   meets (members [⟨4095, 0, false, 0⟩]) (xs [(6, 4095)]) c0 rfl ⟨⟨4095, 0, false, 0⟩, by decide +kernel⟩⟩

/-- A thread of core 1 that waits to follow in a gang of two. -/
def waiting : Thread := { th0 with id := ⟨1, 0⟩, run := .followWait .g2 }
def waitingOn (th : Thread) : State := { s0 with threads := [(64, th)] }
def th1 : Thread := { th0 with id := ⟨1, 0⟩ }
/-- Whether a leader of two finds its follower, with its wheel or with another one. -/
def finds (s : State) (th : Thread) (same : Bool) : Bool :=
  match (s.issuedBy th 0 .none).followers th.asid th.id.core .g2 ((List.range 2).drop 1) with
  | .ok fs => fs.all (fun f => decide (f.wheel = th.wheel) == same) && !fs.isEmpty
  | .error _ => false

theorem witness_GangsFormAndSplit :
    Meets (some 4) .none (fun _ th _ => th.id.core % 16 % 2 = 0) ∧
    Meets (some 4) .none (fun s th _ => th.id.core % 16 % 2 ≠ 0 ∧
      (s.issuedBy th 0 .none).follower? th.asid th.id.core = none ∧ th.gang = .none) ∧
    Meets (some 4) .none (fun s th _ => th.id.core % 16 % 2 = 0 ∧ th.gang = .none ∧
      ((s.issuedBy th 0 .none).followers th.asid th.id.core .g2 [1]).toBool = false) ∧
    Meets (some 4) .none (fun s th _ => th.id.core % 16 % 2 = 0 ∧ th.gang = .none ∧ finds s th true = true) ∧
    Meets (some 4) .none (fun s th _ => th.id.core % 16 % 2 = 0 ∧ th.gang = .none ∧ finds s th false = true) ∧
    Meets (some 4) (.rd [6]) (fun _ th _ => th.gang = .none) ∧
    Meets (some 4) (.rd [6]) (fun _ th _ => th.gang = .leader .g2 [⟨0, 0⟩, ⟨1, 0⟩]) ∧
    Meets (some 4) (.rd [6]) (fun _ th c => th.gang = .follower ⟨1, 0⟩ 1 [] ∧ (th.getX 6).toNat % 4 = 0 ∧ c.loaded (th.getX 6).toNat = true) ∧
    Meets (some 4) (.rd [6]) (fun _ th _ => th.gang = .follower ⟨1, 0⟩ 1 [] ∧ (th.getX 6).toNat % 4 ≠ 0) ∧
    Meets (some 4) (.rd [6]) (fun _ th c => th.gang = .follower ⟨1, 0⟩ 1 [] ∧ (th.getX 6).toNat % 4 = 0 ∧ c.loaded (th.getX 6).toNat = false) :=
  ⟨meets s0 th0 c0 rfl (by decide +kernel), meets s0 th1 c0 rfl (by decide +kernel), meets s0 th0 c0 rfl (by decide +kernel),
   meets (waitingOn waiting) th0 c0 rfl (by decide +kernel), meets (waitingOn { waiting with wheel := 1 }) th0 c0 rfl (by decide +kernel),
   meets s0 th0 c0 rfl rfl, meets s0 { th0 with gang := .leader .g2 [⟨0, 0⟩, ⟨1, 0⟩] } c0 rfl rfl,
   meets s0 (follower) c0 rfl (by decide +kernel), meets s0 (follower (xs [(6, 2)])) c0 rfl (by decide +kernel),
   meets s0 (follower (xs [(6, 0x40000)])) c0 rfl (by decide +kernel)⟩

/-- A handler descriptor at code address 0x80: handler 0x100, HBOUND 10. -/
def handler : State := { s0 with mem := holding (codeKey 0 0x80) [0x0000000A00000100] }

/-- A thread whose region time is bounded by the greatest cap. -/
def capped : Thread := { th0 with cap := 0xFFFFFFFF }

/-- A TOPEN that just fits under CAP, one too long by one; inside a region with just enough left, and at depth 4. -/
theorem witness_BoundedRegions :
    Meets (some 5) (.rd [5, 6, 7]) (fun s th _ => s.topenFault th (th.getX 5) (th.getX 6) (th.getX 7) = none) ∧
    Meets (some 5) (.rd [5, 6, 7]) (fun s th _ => s.topenFault th (th.getX 5) (th.getX 6) (th.getX 7) = some (.refused, 0x100000000)) ∧
    (∃ (s : State) (th : Thread) (c : Ctx), s.ctx? th.asid = some c ∧
      s.topenFault th 0x80 0 990 = none ∧ th.regions.length = 1) ∧
    (∃ (s : State) (th : Thread) (c : Ctx), s.ctx? th.asid = some c ∧
      s.topenFault th 0x80 0 1 = some (.nesting, 4) ∧ th.regions.length = 4) ∧
    Meets (some 5) (.d 5 0) (fun _ th _ => th.regions = []) ∧
    Meets (some 5) (.d 5 0) (fun _ th _ => th.regions = [region]) :=
  ⟨meets handler (xs [(5, 0x80), (7, 0xFFFFFFF5)] capped) c0 rfl (by decide +kernel),
   meets handler (xs [(5, 0x80), (7, 0xFFFFFFF6)] capped) c0 rfl (by decide +kernel),
   ⟨on handler (inside) c0, inside, c0, rfl, by decide +kernel⟩,
   ⟨on handler (inside 4) c0, inside 4, c0, rfl, by decide +kernel⟩,
   meets s0 th0 c0 rfl rfl, meets s0 (inside) c0 rfl rfl⟩

theorem witness_ControlRegisters :
    Meets none (.d 5 4) (fun s th c => Statements.csrValue s c th (0x001 : BitVec 10).toNat = some 0) ∧
    Meets none (.d 5 4) (fun s th c => Statements.csrValue s c th (0x3FF : BitVec 10).toNat = none) ∧
    Meets none (.da 5 6 4) (fun _ th _ => (th.getX 6).toNat % 8 ≤ 4) ∧ Meets none (.da 5 6 4) (fun _ th _ => 4 < (th.getX 6).toNat % 8) ∧
    Meets none (.da 5 6 4) (fun _ th _ => th.csr.vtime.toNat ≤ (th.getX 6).toNat) ∧
    Meets none (.da 5 6 4) (fun _ th _ => (th.getX 6).toNat < th.csr.vtime.toNat) ∧
    (0x001 : BitVec 10).toNat ∉ [0x000, 0x002, 0x010, 0x011, 0x012, 0x013, 0x014, 0x020, 0x021] ∧
    Meets none (.rd [6]) (fun _ th _ => th.csr.vtime.toNat + (th.getX 6).toNat < 2 ^ 64) ∧
    Meets none (.rd [6]) (fun _ th _ => 2 ^ 64 ≤ th.csr.vtime.toNat + (th.getX 6).toNat) :=
  ⟨meets s0 th0 c0 rfl (by decide +kernel), meets s0 th0 c0 rfl (by decide +kernel), meets s0 (xs [(6, 4)]) c0 rfl (by decide +kernel),
   meets s0 (xs [(6, 5)]) c0 rfl (by decide +kernel), meets s0 th0 c0 rfl (by decide +kernel),
   meets s0 { th0 with csr := { th0.csr with vtime := 1 } } c0 rfl (by decide +kernel), by decide,
   meets s0 { xs [(6, 0xFFFFFFFFFFFFFFFE)] with csr := { th0.csr with vtime := 1 } } c0 rfl (by decide +kernel),
   meets s0 { xs [(6, 0xFFFFFFFFFFFFFFFF)] with csr := { th0.csr with vtime := 1 } } c0 rfl (by decide +kernel)⟩

theorem witness_WritesKeepReservedBitsZero : ∃ r', th0.csr.write 0x010 0xFFFFFFFF = .ok r' ∧ th0.csr.tvec.toNat < 2 ^ 18 ∧
    th0.csr.tvec.getLsbD 1 = false ∧ th0.csr.fcsr.toNat < 2 ^ 18 ∧ th0.csr.fcsr.toNat % 8 ≤ 4 ∧ th0.csr.tepc.toNat < 2 ^ 18 ∧
    th0.csr.tepc.toNat % 4 = 0 ∧ th0.csr.tcause.toNat < 2 ^ 9 ∧ th0.csr.feretry ≠ 0 :=
  ⟨_, rfl, by decide +kernel⟩

/-! ### Witnesses: landings, parked threads and accesses under way -/

/-- A thread that is parked. -/
def parked (w : Wait) (th : Thread := th0) : Thread := { th with run := .parked w }
/-- A lane of a load of the doubleword at DRAM address 8. -/
def lane8 (op : CellOp := .load 8) (val : Option W64 := none) (pois : List Nat := []) (fail : Option Cause := none) : Lane :=
  { lane := 0, addr := 8, locs := (List.range 8).map (fun i => .dram (8 + i)), op := op, bit := 0, sent := none, cover := [], atUnit := false,
    pois := pois, val := val, back := val.isSome, fail := fail }
def access8 (l : Lane) (pte : Bool := false) (dst : LoadDst := .x 5 8 false) : Access :=
  { lanes := [l], dst := dst, pte := pte, limit := 4096, bounded := false, ownDue := 0 }
/-- The same doubleword of the thread's own store, and of the store of core 1. -/
def laneOwn (val : Option W64 := none) : Lane := { lane8 (val := val) with locs := (List.range 8).map (fun i => .store 0 (8 + i)) }
/-- A thread stands in its slot. -/
def Stands (P : State → Thread → Prop) : Prop := ∃ (s : State) (t : Tid) (th : Thread), s.thread? t = some th ∧ th.id = t ∧ P s th
theorem stands {P : State → Thread → Prop} (s : State) (th : Thread) (c : Ctx) (p : P (on s th c) th) : Stands P :=
  ⟨on s th c, th.id, th, by simp [on, State.thread?, Tab.find?], rfl, p⟩

/-- A write that is due, with a later one of its register that is not; and writes that leave a register alone. -/
theorem witness_LandingsWriteWhatIsDue :
    Stands (fun _ _ => True) ∧
    (∃ (th : Thread) (a b : List PendWrite), th.pend = a ++ { due := 9, dst := .x 5 1 } :: b ∧ (5 : XReg) ≠ 0 ∧
      ∀ p ∈ b, ∀ w, p.dst ≠ .x 5 w) ∧
    (∃ (th : Thread) (a b : List PendWrite), th.pend = a ++ { due := 9, dst := .x 5 1 } :: b ∧ 9 ≤ 9 ∧ (5 : XReg) ≠ 0 ∧
      ∀ p ∈ b, ¬p.due ≤ 9) ∧
    (∃ th : Thread, (∀ p ∈ th.pend, p.due ≤ 9 → ∀ w, p.dst ≠ .x 6 w) ∧ (∀ p ∈ th.pend, p.due ≤ 9 → ∀ m w, p.dst ≠ .v 6 m w) ∧
      (∀ p ∈ th.pend, p.due ≤ 9 → ∀ m w, p.dst ≠ .m 6 m w) ∧ (∀ p ∈ th.pend, p.due ≤ 9 → ∀ w, p.dst ≠ .fm 6 w) ∧
      (∀ p ∈ th.pend, p.due ≤ 9 → ∀ b, p.dst ≠ .flags b) ∧ th.pend ≠ []) :=
  ⟨stands s0 th0 c0 trivial,
   ⟨{ th0 with pend := [⟨9, .x 5 0⟩, ⟨9, .x 5 1⟩, ⟨8, .flags 3⟩] }, [⟨9, .x 5 0⟩], [⟨8, .flags 3⟩], rfl, by decide, by simp⟩,
   ⟨{ th0 with pend := [⟨9, .x 5 0⟩, ⟨9, .x 5 1⟩, ⟨10, .x 5 2⟩] }, [⟨9, .x 5 0⟩], [⟨10, .x 5 2⟩], rfl, by decide +kernel⟩,
   ⟨{ th0 with pend := [⟨9, .x 5 0⟩] }, by simp⟩⟩

theorem witness_LandingMasksAndFixedRegisters : (6 : VReg) ≠ 5 := by decide

theorem witness_ParkedArithmeticEnds :
    Stands (fun _ th => th.run = .parked (.divide 5 7)) ∧ Stands (fun _ th => th.run = .parked .fpPark) ∧
    Stands (fun _ th => th.run = .parked (.scFence 64)) ∧
    Stands (fun _ th => th.run = .parked (.fpEnd [.x 5 1] 8) ∧ (8 : Flags) &&& th.enables = 0) ∧
    Stands (fun _ th => th.run = .parked (.fpEnd [.x 5 1] 8) ∧ (8 : Flags) &&& th.enables ≠ 0) :=
  ⟨stands s0 (parked (.divide 5 7)) c0 rfl, stands s0 (parked .fpPark) c0 rfl, stands s0 (parked (.scFence 64)) c0 rfl,
   stands s0 (parked (.fpEnd [.x 5 1] 8)) c0 (by decide +kernel),
   stands s0 (fcsr 0x1F00 (parked (.fpEnd [.x 5 1] 8))) c0 (by decide +kernel)⟩

theorem witness_AccessesAndStoresComplete_ends :
    (∃ (a : Access) (l : Lane), a.lanes.find? (·.fail.isSome) = some l ∧ l.fail = some .nopeer ∧ a.dst = .x 5 8 false) ∧
    (∃ a : Access, (∀ l ∈ a.lanes, l.fail = none) ∧ (∀ l ∈ a.lanes, l.pois = []) ∧ a.lanes ≠ []) ∧
    (∀ pte d, ∃ (a : Access) (l : Lane), (∀ l ∈ a.lanes, l.fail = none) ∧ a.lanes.find? (fun l => l.pois ≠ []) = some l ∧
      a.pte = pte ∧ a.dst = d) ∧ Stands (fun _ _ => True) :=
  ⟨⟨access8 (lane8 (val := some 0) (fail := some .nopeer)), _, rfl, rfl, rfl⟩,
   ⟨access8 (lane8 (val := some 0)), by decide, by decide, by decide⟩,
   fun pte d => ⟨access8 (lane8 (val := some 0) (pois := [1])) pte d, lane8 (val := some 0) (pois := [1]), by simp [access8, lane8],
     by simp [access8, lane8], rfl, rfl⟩, stands s0 th0 c0 trivial⟩

/-- The data of the last port, and of one of two; a load of the own store whose time is up. -/
theorem witness_AccessesAndStoresComplete_responses :
    (4608 ≠ (⟨0, 0⟩ : Tid).core) ∧
    Stands (fun _ th => ∃ a, th.run = .parked (.access a) ∧ (∀ l ∈ a.lanes, l.val.isSome = true ∧ l.back = true)) ∧
    Stands (fun _ th => ∃ a, th.run = .parked (.access a) ∧ (∃ l ∈ a.lanes, l.val = none ∨ l.back = false)) ∧
    Stands (fun _ th => ∃ a l, th.run = .parked (.access a) ∧ a.lanes = [l] ∧ l.op = .load 8 ∧ l.val = none ∧ l.atUnit = false ∧
      th.csr.detlvl = 0 ∧ routeOf th.id.core l.locs = .own) :=
  ⟨by decide, stands s0 (parked (.access (access8 (lane8 (val := some 0))))) c0 ⟨_, rfl, by decide⟩,
   stands s0 (parked (.access (access8 lane8))) c0 ⟨_, rfl, by decide⟩,
   stands s0 (parked (.access (access8 laneOwn))) c0 ⟨_, laneOwn, rfl, by decide +kernel⟩⟩

theorem witness_AccessesAndStoresComplete_loads :
    (∃ th : Thread, th.sbuf = [] ∧ 0 < 8 ∧ 8 % 8 + 8 ≤ 8) ∧
    (∃ (th : Thread) (before : List StoreEntry) (e : StoreEntry) (p : StorePart), th.sbuf = before ++ [e] ∧ e.parts = [p] ∧
      p.done = false ∧ p.op = .store 8 1 ∧ p.locs = (List.range 8).map (fun i => ByteLoc.dram (8 + i))) :=
  ⟨⟨th0, rfl, by decide⟩, ⟨{ th0 with sbuf := [buffered 0, buffered 8] }, [buffered 0], buffered 8, _, rfl, rfl, by decide⟩⟩

theorem witness_AccessesAndStoresComplete_destinations :
    (∃ (a : Access) (l : Lane), a.lanes = [l] ∧ l.val = some 3 ∧ a.dst = .x 5 8 false ∧ 8 ∈ [1, 2, 4, 8] ∧ opSize l.op = 8 ∧ l.bit = 0) ∧
    (∃ (a : Access) (l : Lane), a.lanes = [l] ∧ l.val = some 3 ∧ a.dst = .v 5 ∧ l.op = .load 8 ∧ l.bit % 64 = 0 ∧ l.bit < 512) :=
  ⟨⟨access8 (lane8 (val := some 3)), _, rfl, rfl, rfl, by decide⟩,
   ⟨access8 { lane8 (val := some 3) with bit := 448 } (dst := .v 5), _, rfl, rfl, rfl, by decide⟩⟩

/-- A store of the own store. -/
def ownStore : StoreEntry :=
  { buffered 8 with parts := [{ addr := 8, locs := (List.range 8).map (fun i => .store 0 (8 + i)), op := .store 8 1, out := true, sent := none,
                                done := false, acked := false }] }

/-- A store of DRAM that has set out. -/
def setOut8 : StoreEntry := { buffered 8 with parts := (buffered 8).parts.map (fun p => { p with out := true }) }

theorem witness_AccessesAndStoresComplete_stores :
    Stands (fun s th => ∃ p, findEntry 0 [] th.sbuf = some ([], ownStore) ∧ ownStore.parts = [p] ∧
      routeOf th.id.core p.locs = .own ∧ p.out = true ∧ p.done = false ∧ ownStore.ownDue ≤ s.ticks ∧ ∀ b ∈ th.sbuf, 0 ≤ b.id) ∧
    Stands (fun _ th => findEntry 0 [] th.sbuf = some ([], buffered 8) ∧ 4608 ≠ th.id.core) :=
  ⟨stands s0 { th0 with sbuf := [ownStore] } c0 ⟨_, by decide +kernel, rfl, by decide +kernel⟩,
   stands s0 { th0 with sbuf := [buffered 8] } c0 (by decide +kernel)⟩

theorem witness_AccessesAndStoresComplete_packets :
    s0.xbar.early = [] ∧ s0.xbar.expected.getD 0 0 = 0 ∧ s0.xbar.expected.getD 0 0 ≠ 1 ∧
    Stands (fun _ th => ∃ a l, th.run = .parked (.access a) ∧ a.lanes = [l] ∧ l.op = .load 8 ∧ l.val = none ∧ l.atUnit = false ∧
      th.csr.detlvl = 0 ∧ routeOf th.id.core l.locs = .port 4608) ∧
    Stands (fun _ th => ∃ p, findEntry 0 [] th.sbuf = some ([], setOut8) ∧ setOut8.parts = [p] ∧ p.out = true ∧ p.done = false ∧
      routeOf th.id.core p.locs = .port 4608) ∧
    ((({ s0 with xbar := { s0.xbar with early := [(0, 0, PortOp.loadOf ⟨0, 0⟩ 0)] } } : State).atPort 0 0 (.loadOf ⟨0, 0⟩ 0)).1 = none) :=
  ⟨by decide, by decide, by decide, stands s0 (parked (.access (access8 lane8))) c0 ⟨_, lane8, rfl, by decide +kernel⟩,
   stands s0 { th0 with sbuf := [setOut8] } c0 ⟨_, by decide +kernel, rfl, by decide +kernel⟩, by decide +kernel⟩

/-- A packet of kernel 0 from cluster 0 for cluster 1 at station 0, with a number of beats. -/
def pkt (bounded : Bool) (beats : Nat) : NetPkt :=
  { id := 9, bounded := bounded, kernel := some 0, src := 0, dst := 1, flow := 0, beats := beats, place := .station 0, link := 0, path := [],
    ready := 0, limit := 0, stops := false, since := 0, latest := 0, tail := 0, rank := 0, event := .exit 0 }
/-- A network with packets, and a plan of kernel 0 that names general tick 0 of station 0 and home channel h. -/
def net (ps : List NetPkt) (h : Nat) : State :=
  { s0 with xbar := { s0.xbar with pkts := ps, tokens := [(1, { pos := 0, due := 0, held := some 9 })] },
            kernels := [(0, { Kernel.forWord with detlvl := 2, planen := true })],
            qp := { s0.qp with plans := [(0, [at_ 1 20 ||| at_ h 0])] } }

theorem witness_AccessesAndStoresComplete_channels :
    (512 ≤ 512) ∧
    ((net [pkt false 2] 1).claimOf 0 1 = some (0, 0) ∧
      ((net [pkt false 2] 1).waitingAt 0 1).find? (fun p => p.kernel == some 0) = some (pkt false 2)) ∧
    ((net [] 1).claimOf 0 1 = some (0, 0) ∧ ∀ p ∈ (net [] 1).waitingAt 0 1, p.kernel ≠ some 0) ∧
    (3 % 4 = 3 ∧ (net [pkt false 2, pkt true 2] 5).waitingAt ((3 - 3) / 4 % 12) 1 = [pkt false 2] ++ pkt true 2 :: [] ∧
      (pkt true 2).bounded = true ∧ (net [pkt false 2, pkt true 2] 5).isPlanned (pkt true 2) = false ∧
      ∀ x ∈ [pkt false 2], x.bounded = false ∨ (net [pkt false 2, pkt true 2] 5).isPlanned x = true) ∧
    (1 % 4 ≠ 3 ∧ (net [] 1).claimOf 1 1 = none) ∧
    (∀ n, (net [pkt false n] 5).xbar.tokens.find? 1 = some { pos := 0, due := 0, held := some 9 } ∧
      (net [pkt false n] 5).xbar.pkts = [pkt false n] ∧ (pkt false n).place = .station 0 ∧ (pkt false n).id = 9) :=
  ⟨by decide, by decide +kernel, by decide +kernel, by decide +kernel, by decide +kernel, fun n => ⟨rfl, rfl, rfl, rfl⟩⟩

/-- A waiting TAKE of a DRAM cell, examined last at tick 0. -/
def feEntry (count limit : Nat) : FeEntry :=
  { id := 3, place := 4608, locs := (List.range 8).map (fun i => .dram (8 + i)), issuer := 0, op := .take, limit := limit,
    count := count, last := 0, asid := 1, local_ := some ⟨0, 0⟩, remote := none }
def taking : Thread := parked (.feWait (access8 (lane8 .take)) 3)
/-- Its cell full or empty, the tick at which it is due. -/
def feState (full : Bool) (w : FeEntry) : State := { cell full false with waits := [w], ticks := 64 }

/-- The wait as hypotheses of the statement. -/
def FeWaits (s : State) (w : FeEntry) (P : Prop) : Prop :=
  ∃ (t : Tid) (th : Thread) (a : Access) (l : Lane), s.waits = [w] ∧ w.last < s.ticks ∧ w.local_ = some t ∧ w.remote = none ∧
    s.thread? t = some th ∧ th.run = .parked (.feWait a w.id) ∧ a.lanes = [l] ∧ w.last + 64 ≤ s.ticks ∧
    w.locs.map (s.ploc w.issuer) = (List.range 8).map (fun i => PLoc.byte (8 + i)) ∧ P
/-- What an access of the eight bytes at address 8 answers. -/
def answers (s : State) (op : CellOp) : PRes := (s.performAt ((List.range 8).map (fun i => PLoc.byte (8 + i))) op false).1

theorem witness_FullEmptyWaitsAreExamined :
    (∃ s w, FeWaits s w (answers s .take = .fails ∧ w.op = .take ∧ w.count + 1 < w.limit)) ∧
    (∃ s w, FeWaits s w (answers s .take = .fails ∧ w.op = .take ∧ w.limit ≤ w.count + 1)) ∧
    (∃ s w, FeWaits s w (answers s .take = .value 5 false ∧ w.op = .take)) ∧
    Stands (fun s th => ∃ a l, th.run = .parked (.feRefused a 0) ∧ a.lanes = [l] ∧ l.locs.map (s.ploc th.id.core) =
      (List.range 8).map (fun i => PLoc.byte (8 + i)) ∧ answers s l.op = .value 5 false ∧ routeOf th.id.core l.locs = .port 4608) ∧
    (routeOf 0 laneOwn.locs ≠ .port 4608 ∧ routeOf 0 laneOwn.locs = .own) ∧
    Stands (fun s th => ∃ a l, th.run = .parked (.feRefused a 4095) ∧ a.lanes = [l] ∧ answers s l.op = .fails ∧ a.limit ≤ 4095 + 1) ∧
    Stands (fun s th => ∃ a l, th.run = .parked (.feRefused a 4094) ∧ a.lanes = [l] ∧ answers s l.op = .fails ∧ 4094 + 1 < a.limit) :=
  ⟨⟨on (feState false (feEntry 0 2)) taking c1, feEntry 0 2, ⟨0, 0⟩, taking, _, _, rfl, by decide, rfl, rfl, rfl, rfl, rfl, by decide +kernel⟩,
   ⟨on (feState false (feEntry 1 2)) taking c1, feEntry 1 2, ⟨0, 0⟩, taking, _, _, rfl, by decide, rfl, rfl, rfl, rfl, rfl, by decide +kernel⟩,
   ⟨on (feState true (feEntry 0 2)) taking c1, feEntry 0 2, ⟨0, 0⟩, taking, _, _, rfl, by decide, rfl, rfl, rfl, rfl, rfl, by decide +kernel⟩,
   stands (cell true false) (parked (.feRefused (access8 (lane8 .take)) 0)) c1 ⟨_, _, rfl, rfl, by decide +kernel⟩, by decide +kernel,
   stands (cell false false) (parked (.feRefused (access8 (lane8 .take)) 4095)) c1 ⟨_, _, rfl, rfl, by decide +kernel⟩,
   stands (cell false false) (parked (.feRefused (access8 (lane8 .take)) 4094)) c1 ⟨_, _, rfl, rfl, by decide +kernel⟩⟩

/-- Deterministic updates of channel 0. -/
def det (stamp : W64) (order : Nat) (overflow : Bool := false) : DetEntry :=
  { channel := 0, asid := 1, cell := 8, op := .add, b := 1, stamp := stamp, name := 0, prog := 0, order := order, overflow := overflow }

/-- A unit with an update below the LWM, the last one applied at a tick. -/
def detState (last : Nat) : State :=
  { on { s0 with det := [det 1 0], detLast := [(0, last)] } th0 { c1 with lwm := 2 } with ticks := 9 }

theorem witness_DeterministicUpdates :
    Stands (fun s th => ∃ a l, th.run = .parked (.access a) ∧ a.lanes = [l] ∧ l.op = .amo .add 1 ∧
      ¬(16 ≤ s.detCount (channelOf (keyOfLocs (l.locs.map (s.ploc th.id.core)))) false ∧ 65536 ≤
        s.detCount (channelOf (keyOfLocs (l.locs.map (s.ploc th.id.core)))) true) ∧ routeOf th.id.core l.locs = .port 4608) ∧
    ([det 1 0, det 2 1].Pairwise (fun a b => b.before a = false)) ∧ s0.nextUpdate 0 = none ∧
    (∀ last, ∃ e, (detState last).nextUpdate 0 = some e ∧ (detState last).detLast.getD 0 0 = last) ∧
    ((8 : Nat) ≠ 0 ∧ 9 < 8 + 2 ∧ 7 + 2 ≤ 9) ∧ (det 1 0).cell % 8 = 0 :=
  ⟨stands s0 (parked (.access (access8 (lane8 (.amo .add 1))))) c1 ⟨_, _, rfl, rfl, rfl, by decide +kernel⟩, by decide +kernel, by decide +kernel,
   fun last => ⟨det 1 0, by rfl, by rfl⟩, by decide, rfl⟩

/-- A unit with n updates in its buffer and m in its overflow area. -/
def detFull (n m : Nat) : State := { s0 with det := List.replicate n (det 1 0) ++ List.replicate m (det 1 0 true) }

theorem detCount_detFull (n m : Nat) : (detFull n m).detCount 0 false = n ∧ (detFull n m).detCount 0 true = m := by
  simp [State.detCount, detFull, List.filter_append, det]

theorem witness_DeterministicUpdates_full : ∃ s : State, 16 ≤ s.detCount 0 false ∧ 65536 ≤ s.detCount 0 true :=
  ⟨detFull 16 65536, Nat.le_of_eq (detCount_detFull 16 65536).1.symm, Nat.le_of_eq (detCount_detFull 16 65536).2.symm⟩

theorem witness_RegionEventsAndLostStores :
    Stands (fun _ th => th.run = .parked (.tclose 5 9)) ∧
    Stands (fun s th => ∃ d r, th.overrunning s.ticks = some (d, r) ∧ r.hnd = false ∧ th.run ≠ .stopped) ∧
    Stands (fun s th => ∃ r l, th.regions = r :: l ∧ r.hnd = true ∧ r.openTick + r.max = s.ticks ∧ (∀ q ∈ l, q.hnd = false) ∧
      ∀ d n, th.run ≠ .parked (.tclose d n)) ∧
    Stands (fun s th => ∃ x r, th.lost = x :: r ∧ th.entry = none ∧ s.sched.cur = some th.id) ∧
    Stands (fun _ th => ∃ e x r, th.entry = some e ∧ e.hit = true ∧
      (match e.lost with | some y => insertLost y th.lost | none => th.lost) = x :: r) ∧
    Stands (fun s th => ∃ e x r, th.entry = some e ∧ s.sched.cur = some th.id ∧ e.lost = none ∧ th.lost = x :: r) :=
  ⟨stands s0 (parked (.tclose 5 9) (inside)) c0 rfl,
   stands { s0 with ticks := 1000 } (inside) c0 ⟨1, region, by decide +kernel⟩,
   stands { s0 with ticks := 1000 } { th0 with regions := [region true, region] } c0
     ⟨_, _, rfl, rfl, rfl, by decide, by intro d n; exact Run.noConfusion⟩,
   stands s0 { th0 with lost := [(0, 0, 8)] } c0 ⟨_, _, rfl, rfl, rfl⟩,
   stands s0 { th0 with lost := [(0, 0, 8)], entry := some ⟨0, 0, 0, 0, 0, 0, some (1, 0, 16), true⟩ } c0 ⟨_, _, _, rfl, rfl, rfl⟩,
   stands s0 { th0 with lost := [(0, 0, 8)], entry := some ⟨0, 0, 0, 0, 0, 0, none, false⟩ } c0 ⟨_, _, _, rfl, rfl, rfl, rfl⟩⟩

/-- A thread that exits with a store still buffered. -/
theorem witness_SpawnAndExit_buffered : Meets none .none (fun _ th _ => th.regions = [] ∧ th.sbuf ≠ []) :=
  meets s0 { th0 with sbuf := [buffered 8] } c0 rfl (by decide +kernel)

theorem witness_OverrunEntersTheHandler :
    Stands (fun _ th => th.gang = .none ∧ th.run = .ready ∧ th.entry = none ∧ 1 ≤ 2 ∧ 2 ≤ th.regions.length) :=
  stands handler (inside 2) c0 (by decide +kernel)

/-! ### Witnesses: threads, rows, messages and copies under way -/

/-- A child of 8 x registers on the issuing core, entry e, that owns n wheel positions. -/
def child (e n : Nat) : W64 := at_ e 0 ||| at_ 8 18 ||| at_ n 32 ||| at_ 0x1FFF 40
/-- A thread stands in its slot and its context is here. -/
def StandsIn (P : State → Thread → Ctx → Prop) : Prop :=
  ∃ (s : State) (t : Tid) (th : Thread) (c : Ctx), s.thread? t = some th ∧ th.id = t ∧ s.ctx? th.asid = some c ∧ P s th c
theorem standsIn {P : State → Thread → Ctx → Prop} (s : State) (th : Thread) (c : Ctx) (p : P (on s th c) th c) : StandsIn P :=
  ⟨on s th c, th.id, th, c, by simp [on, State.thread?, Tab.find?], rfl, by simp [on, State.ctx?, Tab.find?], p⟩
/-- A thread whose descriptor has landed, and then passed its checks. -/
def spawning (w : W64) (placing : Bool) : Thread := parked (.spawn 5 [w, 0, 0, 0, 0, 0, 0, 0, 0] placing)
/-- A group with open or closed phase, whose first arrival was of another package at a tick. -/
def inGroup (g : Group) : State := { s0 with ctxs := [(1, { c0 with groups := [(7, g)] })] }

theorem witness_ChildrenAndBarriers :
    (∃ (o : Occ) (args : List W64), args.length = 8 ∧ o.xsize ≤ 128) ∧
    StandsIn (fun _ th c => th.run = .parked (.spawn 5 [0, 0, 0, 0, 0, 0, 0, 0, 0] false) ∧
      childIllegal c 0 (childDesc th.id.core 0) = true) ∧
    StandsIn (fun _ th c => th.run = .parked (.spawn 5 [child 4 0, 0, 0, 0, 0, 0, 0, 0, 0] false) ∧
      childIllegal c (child 4 0) (childDesc th.id.core (child 4 0)) = false ∧ c.loaded (childDesc th.id.core (child 4 0)).entry = false) ∧
    StandsIn (fun _ th c => th.run = .parked (.spawn 5 [child 4 0, 0, 0, 0, 0, 0, 0, 0, 0] false) ∧
      childIllegal c (child 4 0) (childDesc th.id.core (child 4 0)) = false ∧ c.loaded (childDesc th.id.core (child 4 0)).entry = true ∧
      (childDesc th.id.core (child 4 0)).core = th.id.core) ∧
    StandsIn (fun _ th c => let w := at_ 4 0 ||| at_ 8 18 ||| at_ 1 40
      th.run = .parked (.spawn 5 [w, 0, 0, 0, 0, 0, 0, 0, 0] false) ∧ childIllegal c w (childDesc th.id.core w) = false ∧
      c.loaded (childDesc th.id.core w).entry = true ∧ (childDesc th.id.core w).core ≠ th.id.core) ∧
    StandsIn (fun s th _ => let k := childDesc th.id.core (child 4 1)
      th.run = .parked (.spawn 5 [child 4 1, 0, 0, 0, 0, 0, 0, 0, 0] true) ∧ placeOn (s.occupied k.core) k.xsize k.vsize k.wheel = none) ∧
    StandsIn (fun s th _ => let k := childDesc th.id.core (child 4 0)
      th.run = .parked (.spawn 5 [child 4 0, 0, 0, 0, 0, 0, 0, 0, 0] true) ∧
      (placeOn (s.occupied k.core) k.xsize k.vsize k.wheel).isSome = true) ∧
    Stands (fun _ _ => ∃ a : Access, a.dst = .spawn 5 ∧ a.lanes ≠ [] ∧ ∀ l ∈ a.lanes, l.fail = none ∧ l.pois = []) ∧
    (∃ (s : State) (p : Phase) (rest : List Phase), (s.group 1 7).done = p :: rest) ∧
    (∃ s : State, (s.group 1 7).isOpen = true) ∧ (∃ s : State, (s.group 1 7).isOpen = false) :=
  ⟨⟨⟨0, 0, 128, 0, 0, 0⟩, List.replicate 8 0, rfl, by decide⟩,
   standsIn s0 (spawning 0 false) c0 (by decide +kernel),
   standsIn s0 (spawning (child 4 0) false) { c0 with code := [(0, 4)] } (by decide +kernel),
   standsIn s0 (spawning (child 4 0) false) c0 (by decide +kernel),
   standsIn s0 (spawning (at_ 4 0 ||| at_ 8 18 ||| at_ 1 40) false) c0 (by decide +kernel),
   standsIn s0 (spawning (child 4 1) true) c0 (by decide +kernel),
   standsIn s0 (spawning (child 4 0) true) c0 (by decide +kernel),
   stands s0 th0 c0 ⟨access8 (lane8 (val := some 3)) (dst := .spawn 5), rfl, by decide⟩,
   ⟨inGroup { Group.closed with done := [⟨[], false, 0⟩] }, _, _, rfl⟩,
   ⟨inGroup { Group.closed with isOpen := true }, rfl⟩, ⟨s0, rfl⟩⟩

/-- Word of another package that a phase has opened: before the opening known here or after it, with or without arrivals sent to the root
or an opening that waits; and arrivals of a package that are known, or not. -/
theorem witness_ChildrenAndBarriers_notices :
    let r0 := fun (g : Group) => ((inGroup g).modCtx 1 Ctx.spanning).group 1 7
    let first := fun (g : Group) (tick peer : Nat) => tick < (r0 g).openAt.1 ∨ tick = (r0 g).openAt.1 ∧ peer < (r0 g).openAt.2
    let g := { Group.closed with isOpen := true, openAt := (9, 3) }
    (r0 Group.closed).isOpen = false ∧ (r0 g).isOpen = true ∧ ¬first g 9 3 ∧ first g 9 2 ∧ (r0 g).sent = false ∧
    (r0 { g with sent := true }).sent = true ∧ (r0 g).reopen = none ∧ (r0 { g with reopen := some (2, 9, true) }).reopen = some (2, 9, true) ∧ (∃ x ∈ (r0 { g with remote := [(2, 5)] }).remote, x.1 = 2) ∧ ∀ x ∈ (r0 g).remote, x.1 ≠ 2 := by
  decide +kernel

/-- Four matrix arrivals of a row, and instructions queued in it. -/
def arrival (fn : MxFn) (xc : W64 := 8) : Arrival := { fn := fn, xa := 0, xb := 0, xc := xc, fmtA := 0x80, fmtB := 0x80, blk := [] }
def inFlight (fn : MxFn) (begun : Bool) (k : Nat) : InFlight :=
  { id := 0, asid := 1, kernels := [0], tids := [⟨0, 0⟩], arrs := List.replicate 4 (arrival fn), decls := [], cfg := 0, ty := 0, kdone := k,
    flags := 0, poison := false, begun := begun, opnds := [], endAt := 0, part := [], workAt := 0,
    done := 0, granted := 0, bad := 0, least := 0, skipped := [], open_ := [] }
def rowState (fn : MxFn) (q : List InFlight) (ty : BitVec 2 := 0) : State :=
  { s0 with cores := (List.range 4).map (fun i => (i, { CoreRec.fresh with arrival := some (⟨i, 0⟩, arrival fn) })),
            rows := [(0, { RowRec.fresh with queue := q, types := [(0, ty)] })] }

theorem witness_RowArraysWork :
    (∃ (s : State) (arr : List (Tid × Arrival)), s.rowArrivals 0 = some arr ∧
      arr.any (fun p => p.2.fn ≠ .cfg && p.2.fn ≠ .scl) = true ∧ 4 ≤ (s.row 0).queue.length) ∧
    (∃ (s : State) (arr : List (Tid × Arrival)), s.rowArrivals 0 = some arr ∧ (s.row 0).queue.length < 4 ∧
      s.startFault 0 (arr.map (·.2)) = none) ∧
    (∃ (s : State) (arr : List (Tid × Arrival)), s.rowArrivals 0 = some arr ∧
      arr.any (fun p => p.2.fn ≠ .cfg && p.2.fn ≠ .scl) = false ∧ s.startFault 0 (arr.map (·.2)) = none) ∧
    (∃ (s : State) (arr : List (Tid × Arrival)), s.rowArrivals 0 = some arr ∧ (s.row 0).queue.length < 4 ∧
      s.startFault 0 (arr.map (·.2)) = some (.illegal, 8)) ∧
    (∃ (s : State) (f : InFlight) (q : List InFlight) (a : Arrival) (l : List Arrival), (s.row 0).queue = f :: q ∧ f.arrs = a :: l ∧
      f.begun = true ∧ f.blocks ≤ f.kdone ∧ a.fn = .mac) ∧
    (∃ (s : State) (f : InFlight) (q : List InFlight) (a : Arrival) (l : List Arrival), (s.row 0).queue = f :: q ∧ f.arrs = a :: l ∧
      f.begun = true ∧ f.blocks ≤ f.kdone ∧ a.fn = .zero) :=
  ⟨⟨rowState .mac (List.replicate 4 (inFlight .mac true 0)), _, rfl, by decide +kernel⟩,
   ⟨rowState .mac (List.replicate 3 (inFlight .mac true 0)), _, rfl, by decide +kernel⟩,
   ⟨rowState .cfg (List.replicate 4 (inFlight .mac true 0)), _, rfl, by decide +kernel⟩,
   ⟨rowState .mac [] 1, _, rfl, by decide +kernel⟩,
   ⟨rowState .mac [inFlight .mac true 1], _, _, _, _, rfl, rfl, by decide +kernel⟩,
   ⟨rowState .mac [inFlight .zero true 0], _, _, _, _, rfl, rfl, by decide +kernel⟩⟩

/-- A k-block of ones in the operand registers. -/
def opBlock : OpBlock := { a := List.replicate 32 [], b := List.replicate 128 [], sa := [], sb := [], pois := 0 }
/-- An instruction of two k-blocks that runs, with blocks in its operand registers. -/
def running (k : Nat) (os : List OpBlock) (endAt : Nat := 0) : InFlight :=
  { inFlight .mac true k with arrs := List.replicate 4 (arrival .mac 16), opnds := os, endAt := endAt }
/-- It runs on row 0, of a context that is live or not. -/
def Runs (P : State → InFlight → Prop) : Prop :=
  ∃ (s : State) (f : InFlight) (q : List InFlight) (a : Arrival) (l : List Arrival),
    (s.row 0).queue = f :: q ∧ f.arrs = a :: l ∧ f.begun = true ∧ f.kdone < f.blocks ∧ P s f

theorem witness_RowArraysWork_kBlocks :
    Runs (fun s f => f.opnds = [] ∨ s.ticks < f.endAt) ∧ Runs (fun _ f => f.opnds = opBlock :: [] ∧ f.endAt = 0) ∧
    Runs (fun s f => f.opnds = opBlock :: [] ∧ f.endAt ≠ 0 ∧ f.endAt ≤ s.ticks ∧ f.kdone + 1 < f.blocks ∧ s.rowLive f = true) ∧
    Runs (fun s f => f.opnds = opBlock :: [] ∧ f.endAt ≠ 0 ∧ f.endAt ≤ s.ticks ∧ f.kdone + 1 < f.blocks ∧ s.rowLive f = false) ∧
    Runs (fun s f => f.opnds = opBlock :: [opBlock] ∧ f.endAt ≠ 0 ∧ f.endAt ≤ s.ticks) ∧
    Runs (fun s f => f.opnds = opBlock :: [] ∧ f.endAt ≠ 0 ∧ f.endAt ≤ s.ticks ∧ ¬f.kdone + 1 < f.blocks) ∧
    Runs (fun s f => f.kdone + f.opnds.length < f.blocks ∧ f.opnds.length < 2 ∧ (f.endAt ≠ 0 ∨ s.rowLive f = true)) ∧
    opBlock.a.length = 32 ∧ opBlock.b.length = 128 :=
  let at5 := fun (s : State) => ({ s with ticks := 5 } : State)
  ⟨⟨rowState .mac [running 0 []], _, _, _, _, rfl, rfl, rfl, by decide +kernel, .inl rfl⟩,
   ⟨rowState .mac [running 0 [opBlock]], _, _, _, _, rfl, rfl, rfl, by decide +kernel, rfl, rfl⟩,
   ⟨at5 (on (rowState .mac [running 0 [opBlock] 5]) th0 c0), _, _, _, _, rfl, rfl, rfl, by decide +kernel, rfl, by decide +kernel⟩,
   ⟨at5 (rowState .mac [running 0 [opBlock] 5]), _, _, _, _, rfl, rfl, rfl, by decide +kernel, rfl, by decide +kernel⟩,
   ⟨at5 (rowState .mac [running 0 [opBlock, opBlock] 5]), _, _, _, _, rfl, rfl, rfl, by decide +kernel, rfl, by decide +kernel⟩,
   ⟨at5 (rowState .mac [running 1 [opBlock] 5]), _, _, _, _, rfl, rfl, rfl, by decide +kernel, rfl, by decide +kernel⟩,
   ⟨on (rowState .mac [running 0 []]) th0 c0, _, _, _, _, rfl, rfl, rfl, by decide +kernel, by decide +kernel⟩,
   by decide +kernel⟩

/-- A state with a thread of the instruction that ends. -/
theorem witness_RowArraysWork_threads : ∃ (s : State) (u : Thread), s.keyed = true ∧ (⟨0, 0⟩ : Tid) ∈ (inFlight .mac true 1).tids ∧
    s.thread? ⟨0, 0⟩ = some u ∧ (s.row 0).queue = [inFlight .mac true 1] :=
  ⟨on (rowState .mac [inFlight .mac true 1]) th0 c0, th0, by decide +kernel, by decide, rfl, rfl⟩

/-- A machine whose ranks 0 to 2 are here, with posted receives, unexpected messages and landings. -/
def rxe (posted : List Recv) (unexp : List Header) (landings : List Landing := []) : State :=
  on { desc 0 [] with rxe := { s0.rxe with posted := posted, unexp := unexp, landings := landings } } th0 c1
/-- The hypotheses on a header that is next in its pair and whose rank is here, whose match unit is free. -/
def Arrives (s : State) (h : Header) (free : Bool) : Prop :=
  ∃ (c : Ctx) (e : RankEntry), s.ctx? h.asid = some c ∧ s.rank? h.drank = some e ∧ (c.phase = .live ∧ c.level = 0 ∧
    s.numberTaken (headerPair h) h.seq = false ∧ e.peer = s.ni.peer ∧ e.transit = false ∧
    s.rxe.nextSeq.getD (headerPair h) 0 = h.seq ∧ h.srcPeer ≠ s.ni.peer ∧ (h.via ≠ none ∨ s.ticks ≤ h.expires) ∧
    h.target = s.ni.peer ∧ s.firstOfSender h = none ∧ s.unitFree (dieOf e.core) = free)
def rankHere : RankEntry := { peer := 0, core := 0, transit := false }
/-- A landing of a message: of another package or of this one, its payload to be pulled or with it. -/
def landing (h : Header) (n : Nat) (status : Bool := false) (units : Bool := false) (homes : List (Nat × Nat) := []) : Landing :=
  { id := 4, hdr := h, recv := { recv 7 with maxlen := n }, status := status, packets := [0], held := [], homes := homes, pull := false,
    units := units, started := true, born := 0 }
/-- A message that waits at its sender. -/
def sendRec : SendRec :=
  { id := 9, kernel := 0, hdr := hdr 7 0 0, direct := none, group := 9, desc := own 0, staged := false, asked := false, got := [],
    parts := [], accepted := false,
    counted := false, name := 0, nobody := false, fate := .underWay, views := [], own := true, born := 0 }
/-- A message unit whose refused messages wait for n places of the queue and m eager units. -/
def refusing (n m : Nat) : State :=
  let s := rxe [recv 3] []
  { s with rxe := { s.rxe with refusals := [{ peer := 4, pair := 0, seq := 0, queue := n, units := m, stage := 0 }] } }

theorem witness_MessagesProgress_headers :
    (∃ s h, Arrives s h false) ∧
    (∃ (s : State) (h : Header) (r : Recv), Arrives s h true ∧ s.rxe.posted = [recv 3] ++ r :: [] ∧ r.matches h = true ∧
      ∀ x ∈ [recv 3], x.matches h = false) ∧
    (∃ (s : State) (h : Header), Arrives s h true ∧ (∀ r ∈ s.rxe.posted, r.matches h = false) ∧ s.queueRefuses h = none) ∧
    (∃ (s : State) (h : Header), Arrives s h true ∧ (∀ r ∈ s.rxe.posted, r.matches h = false) ∧ s.queueRefuses h = some .queueFull) ∧
    (∃ (s : State) (h : Header), Arrives s h true ∧ (∀ r ∈ s.rxe.posted, r.matches h = false) ∧ s.queueRefuses h = some .fewUnits) :=
  ⟨⟨{ rxe [] [] with rxe := { s0.rxe with busy := [(0, 5)] } }, hdr 7, c1, rankHere, rfl, rfl, by decide +kernel⟩,
   ⟨rxe [recv 3, recv 7] [], hdr 7, recv 7, ⟨c1, rankHere, rfl, rfl, by decide +kernel⟩, rfl, by decide +kernel⟩,
   ⟨rxe [recv 3] [], hdr 7, ⟨c1, rankHere, rfl, rfl, by decide +kernel⟩, by decide +kernel⟩,
   ⟨refusing 8192 0, hdr 7, ⟨c1, rankHere, rfl, rfl, by decide +kernel⟩, by decide +kernel⟩,
   ⟨refusing 0 8192, hdr 7, ⟨c1, rankHere, rfl, rfl, by decide +kernel⟩, by decide +kernel⟩⟩

theorem witness_MessagesProgress :
    (∃ (s : State) (m : SendRec), s.send? 9 = some m ∧ s.forwarded? 9 = none ∧ m.accepted = false ∧ m.fate = .underWay ∧
      s.asker? 9 = none ∧ s.numberTaken (pairKey 1 1 2) 0 = false ∧ s.numberTaken (pairKey 1 1 2) (2 ^ 32 - 1) = true ∧
      s.rxe.landings = [] ∧ (s.rank? m.hdr.drank).isSome = true) ∧
    (∃ (s : State) (l : Landing), s.landing? 4 = some l ∧ 0 ∈ l.packets ∧ (0, 3) ∈ l.homes) ∧
    (∃ (s : State) (l : Landing), s.landing? 4 = some l ∧ 0 ∈ l.packets ∧ s.pushed l = true ∧ l.status = true ∧
      (∀ x ∈ l.homes, x.1 ≠ 0) ∧ (∀ x ∈ l.held, x.1 ≠ 0) ∧ l.hdr.srcPeer ≠ s.ni.peer) ∧
    (∃ (s : State) (l : Landing), s.landing? 4 = some l ∧ 0 ∈ l.packets ∧ s.pushed l = true ∧ l.status = false ∧
      (∀ x ∈ l.homes, x.1 ≠ 0) ∧ ∀ x ∈ l.held, x.1 ≠ 0) ∧
    (∃ (s : State) (l : Landing), s.landing? 4 = some l ∧ l.hdr.srcPeer = s.ni.peer ∧ l.bytes = 0) ∧
    (∃ (s : State) (l : Landing), s.landing? 4 = some l ∧ l.hdr.srcPeer = s.ni.peer ∧ l.bytes ≠ 0) ∧
    (∀ n, ∃ (s : State) (p : FarPull) (m : SendRec), s.send? p.sendId = some m ∧ p.len = n) ∧
    (∃ (l : Landing), ∃ e ∈ l.homes.filter (· != (0, 3)), e.1 = 0) ∧ (∃ (l : Landing), ∀ e ∈ l.homes.filter (· != (0, 3)), e.1 ≠ 0) ∧
    (∃ (l : Landing), l.units = true ∧ l.hdr.units[0]? = some 5) :=
  let far := { hdr 7 with kind := .rendezvous }
  let sends := { rxe [] [] with ni := { (rxe [] []).ni with sends := [sendRec] } }
  ⟨⟨{ rxe [] [] with ni := { (rxe [] []).ni with sends := [sendRec] } }, sendRec, by decide +kernel⟩,
   ⟨rxe [] [] [landing (hdr 7) 8 (homes := [(0, 3)])], landing (hdr 7) 8 (homes := [(0, 3)]), by decide +kernel⟩,
   ⟨rxe [] [] [landing far 8 (status := true)], landing far 8 (status := true), by decide +kernel⟩,
   ⟨rxe [] [] [landing far 8], landing far 8, by decide +kernel⟩,
   ⟨rxe [] [] [landing (hdr 7 0 0) 0], landing (hdr 7 0 0) 0, by decide +kernel⟩,
   ⟨rxe [] [] [landing (hdr 7 0 0) 8], landing (hdr 7 0 0) 8, by decide +kernel⟩,
   fun n => ⟨sends, { peer := 5, landing := 4, sendId := 9, len := n, dest := 0, mbox := 0, fill := false, tid := ⟨0, 0⟩, cmbox := 0 },
     sendRec, rfl, rfl⟩,
   ⟨landing far 8 (homes := [(0, 3), (0, 4)]), by decide⟩, ⟨landing far 8 (homes := [(0, 3), (1, 3)]), by decide⟩,
   ⟨landing { hdr 7 with units := [5] } 8 (units := true), rfl, rfl⟩⟩

/-- 512 requests in a streamer's queue. -/
def fullStreamer : State := { s0 with copies := copyReq 3 :: List.replicate 512 { copyReq 4 with queued := true } }

theorem witness_CopiesProgress :
    (∃ (s : State) (r : CopyReq), s.copy? 3 = some r ∧ r.queued = false ∧ (∀ x ∈ s.copies, x.id = 3 → x = r) ∧
      (s.atStreamer r.channel).length < 512) ∧
    (∃ (s : State) (r : CopyReq), s.turnPorts r r.got.length = [streamerPort r.channel]) ∧
    (∃ (r : CopyReq), r.got[0]? = some ⟨[], []⟩) ∧
    (∃ (s : State) (r : CopyReq), s.copy? 3 = some r ∧ r.tilePlaced = false ∧ (s.placeTile r).isSome = true ∧ r.tileDue = 0) ∧
    (∃ (s : State) (r : CopyReq), s.copy? 3 = some r ∧ r.tilePlaced = false ∧ (s.placeTile r).isSome = true ∧ r.tileDue ≠ 0 ∧
      r.tileDue ≤ s.ticks) ∧
    (∃ (s : State) (r : CopyReq), s.copy? 3 = some r ∧ r.tilePlaced = false ∧ s.placeTile r = none ∧ r.tileDue ≤ s.ticks) ∧
    (∃ (s : State) (r : CopyReq), s.copy? 3 = some r ∧ 0 ∈ r.chunks ∧ (s.row (r.dcore / 4)).queue = [] ∧ r.rowIds = []) ∧
    (∃ (s : State) (r : CopyReq), s.copy? 3 = some r ∧ 0 ∈ r.chunks ∧ (s.row (r.dcore / 4)).queue = [] ∧ r.rowIds ≠ [] ∧
      s.ticks < r.limit) :=
  ⟨⟨{ s0 with copies := [copyReq 3] }, copyReq 3, by decide +kernel⟩,
   ⟨on s0 th0 c1, copyReq 3, by decide +kernel⟩, ⟨{ copyReq 3 with got := [⟨[], []⟩] }, rfl⟩,
   ⟨on { s0 with copies := [{ copyReq 3 with scale := 8, slen := 8 }] } th0 c1, { copyReq 3 with scale := 8, slen := 8 }, by decide +kernel⟩,
   ⟨on { s0 with ticks := 9, copies := [{ copyReq 3 with scale := 8, slen := 8, tileDue := 9 }] } th0 c1,
     { copyReq 3 with scale := 8, slen := 8, tileDue := 9 }, by decide +kernel⟩,
   ⟨on { s0 with copies := [{ copyReq 3 with scale := 8, slen := 8 }],
                 rows := [(0, { RowRec.fresh with tiles := [⟨0, 0, false, 0, List.replicate 8 0⟩] })] } th0 c1,
     { copyReq 3 with scale := 8, slen := 8 }, by decide +kernel⟩,
   ⟨{ s0 with copies := [copyReq 3] }, copyReq 3, by decide +kernel⟩,
   ⟨{ s0 with copies := [{ copyReq 3 with rowIds := [1], limit := 9 }] }, { copyReq 3 with rowIds := [1], limit := 9 }, by decide +kernel⟩⟩

theorem queued_only (a b : CopyReq) (ch n : Nat) (ha : (a.queued && a.channel == ch) = false) (hb : (b.queued && b.channel == ch) = true) :
    (a :: List.replicate n b).filter (fun c => c.queued && c.channel == ch) = List.replicate n b := by
  rw [List.filter_cons, if_neg (by simp [ha]), List.filter_eq_self]
  intro x hx
  obtain ⟨_, rfl⟩ := List.mem_replicate.mp hx
  exact hb

theorem witness_CopiesProgress_full : ∃ (s : State) (r : CopyReq), s.copy? 3 = some r ∧ r.queued = false ∧
    (∀ x ∈ s.copies, x.id = 3 → x = r) ∧ 512 ≤ (s.atStreamer r.channel).length := by
  refine ⟨fullStreamer, copyReq 3, rfl, rfl, ?_, ?_⟩
  · intro x hx h
    rcases List.mem_cons.mp hx with rfl | hx
    · rfl
    · obtain ⟨_, rfl⟩ := List.mem_replicate.mp hx
      exact absurd h (by decide +kernel)
  · have : fullStreamer.atStreamer (copyReq 3).channel = List.replicate 512 { copyReq 4 with queued := true } := by
      exact queued_only (copyReq 3) { copyReq 4 with queued := true } 0 512 (by decide +kernel) (by decide +kernel)
    exact Nat.le_of_eq ((congrArg List.length this).trans (List.length_replicate ..)).symm

/-! ### Witnesses: global accesses and migration -/

/-- A table for a context at DRAM page 1: the first 2 MiB page is pinned at frame 1 with leaf attributes. -/
def tables (attr : W64) : Memory :=
  (((holding 0x1000 [at_ 2 12 ||| 1]).writeN 0x2000 (wordBytes [at_ 3 12 ||| 1])).writeN 0x3000 (wordBytes [at_ 1 21 ||| 1 ||| attr]))
def ctxTbl : Ctx := { c1 with tbl := 0x1000 }
/-- Package 0 of a ring of two, whose peer 1 is one hop away. -/
def global (attr : W64 := 0xC) : State :=
  on { s0 with mem := tables attr, ni := { s0.ni with ring := at_ 2 11 ||| at_ 1 15 ||| at_ 1 19, table := [(0, 0), (1, at_ 1 2)] } } th0 ctxTbl
/-- A request of peer 1. -/
def req (op : CellOp := .load 8) (seq : Nat := 0) (ts : Nat := 0) (target : Nat := 0) (limit : Nat := 4096) : GReq :=
  { src := 1, target := target, seq := seq, asid := 1, tid := ⟨0, 0⟩, va := 8, op := op, ts := ts, limit := limit, pte := false, det := none,
    nomig := false, bounded := false, xsize := 8, wheelCount := 0 }
/-- Whether a request is the next of its package and in time, and what the walk finds, its package having been heard. -/
def Next (s0 : State) (r : GReq) (P : State → Ctx → Prop) : Prop :=
  let s := s0.hear r.src
  r.target = s.ni.peer ∧ s.recorded r.src r.seq = none ∧ s.ni.early = [] ∧ r.seq < 2 ^ 32 ∧ r.seq = s.ni.high.getD r.src 0 ∧
    decide (r.ts + s.fabric.dbound.toNat < s.ticks + 65536) = false ∧ ∃ c, s.ctx? r.asid = some c ∧ c.phase = .live ∧ P s c
theorem next (s : State) (r : GReq) (c : Ctx) {P : State → Ctx → Prop} (h : (s.hear r.src).ctx? r.asid = some c) (p : P (s.hear r.src) c)
    (q : let s := s.hear r.src
      r.target = s.ni.peer ∧ s.recorded r.src r.seq = none ∧ s.ni.early = [] ∧ r.seq < 2 ^ 32 ∧ r.seq = s.ni.high.getD r.src 0 ∧
      decide (r.ts + s.fabric.dbound.toNat < s.ticks + 65536) = false ∧ c.phase = .live) : Next s r P :=
  ⟨q.1, q.2.1, q.2.2.1, q.2.2.2.1, q.2.2.2.2.1, q.2.2.2.2.2.1, c, h, q.2.2.2.2.2.2, p⟩
/-- The leaf that those tables hold. -/
def leaf (attr : W64) : W64 × Bool := (at_ 1 21 ||| 1 ||| attr, false)

theorem witness_RequestsAreTranslated :
    (∃ (s : State) (r : GReq), r.target ≠ s.ni.peer) ∧
    (∃ (s : State) (r : GReq) (a : GResult), r.target = s.ni.peer ∧ (s.hear 1).recorded r.src r.seq = some (some a)) ∧
    (∃ (s : State) (r : GReq), r.target = s.ni.peer ∧ (s.hear 1).recorded r.src r.seq = some none) ∧
    (∃ (s : State) (r : GReq), r.target = s.ni.peer ∧ (s.hear 1).recorded r.src r.seq = none ∧ s.ni.early = [] ∧ r.seq < 2 ^ 32 ∧
      2 ^ 31 ≤ (r.seq + 2 ^ 32 - s.ni.high.getD r.src 0) % 2 ^ 32) ∧
    (∃ (s : State) (r : GReq), r.target = s.ni.peer ∧ (s.hear 1).recorded r.src r.seq = none ∧ s.ni.early = [] ∧ r.seq < 2 ^ 32 ∧
      (r.seq + 2 ^ 32 - s.ni.high.getD r.src 0) % 2 ^ 32 < 2 ^ 31 ∧ r.seq ≠ s.ni.high.getD r.src 0) ∧
    (∃ (s : State) (r : GReq), r.target = s.ni.peer ∧ (s.hear 1).recorded r.src r.seq = none ∧ s.ni.early = [] ∧ r.seq < 2 ^ 32 ∧
      r.seq = s.ni.high.getD r.src 0 ∧ decide (r.ts + s.fabric.dbound.toNat < s.ticks + 65536) = true) ∧
    (∃ (s : State) (r : GReq), Next s r (fun s _ => r.op = .withdraw 7 ∧ s.waits = [])) ∧
    (∃ (s : State) (r q : GReq) (w : FeEntry), Next s r (fun s _ => r.op = .withdraw 7 ∧ s.waits = [w] ∧ w.remote = some q ∧
      q.src = r.src ∧ q.seq = 7)) ∧
    (∃ (s : State) (r : GReq), Next s r (fun s c => (∀ n, r.op ≠ .withdraw n) ∧ s.walk c r.va = none)) ∧
    (∃ (s : State) (r : GReq), Next s r (fun s c => s.walk c r.va = some (leaf 0) ∧ (opRights r.op).1 = true ∧ bit (leaf 0).1 2 = false)) ∧
    (∃ (s : State) (r : GReq), Next s r (fun s c => s.walk c r.va = some (leaf 0x1C) ∧ bit (leaf 0x1C).1 2 = true ∧
      (opRights r.op).2 = false ∧ bit (leaf 0x1C).1 4 = true ∧ opStores r.op = false ∧ r.nomig = false ∧
      s.landingPlace c r.xsize r.wheelCount ≠ none)) ∧
    (∃ (s : State) (r : GReq), Next s r (fun s c => s.walk c r.va = some (leaf 0xC) ∧ bit (leaf 0xC).1 4 = false ∧
      bit (leaf 0xC).1 2 = true)) :=
  ⟨⟨global, req (target := 1), by decide +kernel⟩,
   ⟨{ global with ni := { (global).ni with record := [(1, 0, some .ack)] } }, req, .ack, by decide +kernel⟩,
   ⟨{ global with ni := { (global).ni with record := [(1, 0, none)] } }, req, by decide +kernel⟩,
   ⟨{ global with ni := { (global).ni with high := [(1, 1)] } }, req, by decide +kernel⟩,
   ⟨global, req (seq := 1), by decide +kernel⟩,
   ⟨{ global with ticks := 2000000 }, req, by decide +kernel⟩,
   ⟨global, req (.withdraw 7), next _ _ ctxTbl rfl (by decide +kernel) (by decide +kernel)⟩,
   ⟨{ global with waits := [{ feEntry 0 9 with local_ := none, remote := some (req .take 7) }] }, req (.withdraw 7), req .take 7, _,
     next _ _ ctxTbl rfl ⟨rfl, rfl, rfl, rfl, rfl⟩ (by decide +kernel)⟩,
   ⟨on s0 th0 c1, req, next _ _ c1 rfl ⟨fun n => CellOp.noConfusion, by decide +kernel⟩ (by decide +kernel)⟩,
   ⟨global 0, req, next _ _ ctxTbl rfl (by decide +kernel) (by decide +kernel)⟩,
   ⟨global 0x1C, req, next _ _ ctxTbl rfl (by decide +kernel) (by decide +kernel)⟩,
   ⟨global 0xC, req, next _ _ ctxTbl rfl (by decide +kernel) (by decide +kernel)⟩⟩

/-- The DRAM key of the request's doubleword, under the second 2 MiB page's frame. -/
def keyAt : Nat := leafAddr (leaf 0xC) 8
/-- A request's context, and what the access gives there. -/
def Crosses (s : State) (r : GReq) (P : State → Ctx → Prop) : Prop :=
  ∃ c, (s.mayCorrect r.asid keyAt).ctx? r.asid = some c ∧ P (s.mayCorrect r.asid keyAt) c
theorem crosses {s : State} {r : GReq} {P : State → Ctx → Prop}
    (h : ∃ c, (s.draw 2).2.ctx? r.asid = some c ∧ P (s.draw 2).2 c)
    (h1 : ∃ c, ((s.draw 2).2.count r.asid 4 1).ctx? r.asid = some c ∧ P ((s.draw 2).2.count r.asid 4 1) c) : Crosses s r P := by
  have k : keyAt < 2 ^ 39 := by decide +kernel
  unfold Crosses State.mayCorrect
  simp only [if_pos k]
  split
  · exact h1
  · exact h
def performs (s : State) (r : GReq) : PRes := (s.performAt (reqLocs r keyAt) r.op r.pte).1

/-- Updates of one channel, n in its buffer and m in its overflow area. -/
def moved (ch n m : Nat) : List DetEntry := (detFull n m).det.map (fun e => { e with channel := ch })
theorem detCount_moved (s : State) (ch n m : Nat) :
    ({ s with det := moved ch n m } : State).detCount ch false = n ∧ ({ s with det := moved ch n m } : State).detCount ch true = m := by
  simp [State.detCount, moved, detFull, det, List.filter_append]
/-- A unit whose buffer and overflow area are full refuses. -/
theorem refusesFull (s : State) (asid key name : Nat) (op : AmoOp) (b stamp : W64) (prog : BitVec 32) :
    ({ s with det := moved (channelOf key) 16 65536 } : State).detAccept asid key op b stamp name prog = none := by
  have h := detCount_moved s (channelOf key) 16 65536
  simp only [State.detAccept, h.1, h.2]
  rfl

theorem witness_RequestsArePerformed :
    (∃ (s : State) (r : GReq), Crosses s r (fun _ c => c.phase = .ended)) ∧
    (∀ full, ∃ (s : State) (r : GReq), Crosses s r (fun _ c => c.phase = .live) ∧ r.op = .amo .add 1 ∧ r.det = some (5, 0) ∧
      (s.detAccept r.asid keyAt .add 1 5 (globalName r.src r.tid) 0).isNone = full) ∧
    (∃ (s : State) (r : GReq), Crosses s r (fun s c => c.phase = .live ∧ s.detHolds c 5 (reqLocs r keyAt) false = true) ∧
      r.op = .load 8 ∧ r.det = some (5, 0)) ∧
    (∃ (s : State) (r : GReq), Crosses s r (fun _ c => c.phase = .live) ∧ r.op = .load 8 ∧ r.det = none ∧ r.src ≠ s.ni.peer) ∧
    (∃ (s : State) (r : GReq), Crosses s r (fun _ c => c.phase = .live) ∧ r.op = .amo .add 1 ∧ r.det = none ∧
      performs s r = .value 0 false) ∧
    (∃ (s : State) (r : GReq), performs s r = .fails ∧ r.op = .take ∧ r.src = s.ni.peer ∧ (s.thread? r.tid).any s.withdraws = true) ∧
    (∃ (s : State) (r : GReq), performs s r = .fails ∧ r.op = .take ∧ r.src ≠ s.ni.peer ∧ r.limit = 0) ∧
    (∀ full, ∃ (s : State) (r : GReq), performs s r = .fails ∧ r.op = .take ∧ r.src ≠ s.ni.peer ∧ r.limit ≠ 0 ∧
      (s.enterWait ((List.range 8).map (fun i => .dram (keyAt + i))) 0 r.op r.limit 0 r.asid none (some r)).isNone = full) ∧
    (∃ (s : State) (r : GReq), s.ni.crossing = [(r, keyAt, false)]) :=
  let ended : Ctx := { ctxTbl with phase := .ended }
  let amo := { req (.amo .add 1) with det := some (5, 0) }
  ⟨⟨on global th0 ended, req, crosses ⟨_, rfl, rfl⟩ ⟨_, rfl, rfl⟩⟩,
   fun f => match f with
     | false => ⟨global 0xC, amo, crosses ⟨_, rfl, rfl⟩ ⟨_, rfl, rfl⟩, rfl, rfl, by decide +kernel⟩
     | true => ⟨{ global 0xC with det := moved (channelOf keyAt) 16 65536 }, amo,
         crosses ⟨_, rfl, rfl⟩ ⟨_, rfl, rfl⟩, rfl, rfl, by rw [refusesFull]; rfl⟩,
   ⟨{ global 0xC with det := [{ det 1 0 with cell := keyAt }] }, { req with det := some (5, 0) }, crosses ⟨_, rfl, by decide +kernel⟩ ⟨_, rfl, by decide +kernel⟩, rfl, rfl⟩,
   ⟨global 0xC, req, crosses ⟨_, rfl, rfl⟩ ⟨_, rfl, rfl⟩, by decide +kernel⟩,
   ⟨global 0xC, req (.amo .add 1), crosses ⟨_, rfl, rfl⟩ ⟨_, rfl, rfl⟩, by decide +kernel⟩,
   ⟨{ global 0xC with threads := [(0, { th0 with ovr := true })] }, { req .take with src := 0 }, by decide +kernel⟩,
   ⟨global 0xC, req .take (limit := 0), by decide +kernel⟩,
   fun f => match f with
     | false => ⟨global 0xC, req .take, by decide +kernel⟩
     | true => ⟨{ global 0xC with waits := List.replicate 64 { feEntry 0 9 with place := placeOf keyAt } }, req .take, by decide +kernel⟩,
   ⟨{ global with ni := { (global).ni with crossing := [(req, keyAt, false)] } }, req, rfl⟩⟩

/-- A request to peer 1, number 0, of the thread's load, or of its buffered store. -/
def outReq (store : Option Nat) (sent : Bool) (op : CellOp := .load 8) : OutReq :=
  { req := { req op with src := 0, target := 1 }, store := store, here := true, sent := sent, otherDir := [], wasHeld := false,
    holdTo := 0, gone := false, route := [], heldTo := 0, queue := none }
def loading : Thread := parked (.access (access8 { lane8 with locs := [.global 1 8], sent := some (1, 0) }))
def issuing (o : OutReq) (th : Thread := loading) : State :=
  on { global with threads := [], ni := { (global).ni with out := [o] } } th ctxTbl
def issued (store : Option Nat) (sent : Bool) : State := issuing (outReq store sent)
/-- An answer of peer 1 to request 0, its number there. -/
def answer (res : GResult) (num : Nat := 0) (target : Nat := 0) : GResp :=
  { peer := 1, target := target, asid := 1, num := num, seq := 0, result := res }

theorem witness_AnswersAreTaken :
    (answer .ack 0 3).target ≠ s0.ni.peer ∧ (answer .ack).target = s0.ni.peer ∧ s0.ni.respEarly = [] ∧
    (∃ (s : State) (r : GResp), 2 ^ 31 ≤ (r.num + 2 ^ 32 - (s.hear r.peer).ni.respNext.getD r.peer 0) % 2 ^ 32) ∧
    (1 + 2 ^ 32 - (s0.hear 1).ni.respNext.getD 1 0) % 2 ^ 32 < 2 ^ 31 ∧ (s0.hear 1).ni.respNext.getD 1 0 = 0 ∧
    s0.outReq? 1 0 = none ∧
    (∃ (s : State) (o : OutReq), s.outReq? 1 0 = some o ∧ o.queue = some 5) ∧
    (∃ (s : State) (o : OutReq), s.outReq? 1 0 = some o ∧ o.queue = none ∧ (s.thread? o.req.tid).any s.withdraws = false) :=
  ⟨by decide, by decide, by decide, ⟨{ s0 with ni := { s0.ni with respNext := [(1, 1)] } }, answer .ack, by decide +kernel⟩,
   by decide +kernel, by decide +kernel, by decide,
   ⟨issuing { outReq none true with queue := some 5 }, _, rfl, rfl⟩, ⟨issued none true, _, rfl, rfl, by decide +kernel⟩⟩

theorem witness_AnswersEndAccesses :
    (∃ (s : State) (th : Thread), s.thread? ⟨0, 0⟩ = some th) ∧
    (∃ (s : State) (a : Access), s.waiting? ⟨0, 0⟩ = some (.access a) ∧ s.outReq? 1 0 = none ∧ a.laneOf (1, 0) ≠ none) ∧
    (∃ (s : State) (r : GReq) (a : Access), s.waiting? r.tid = some (.access a) ∧ (∀ m, r.op ≠ .withdraw m) ∧
      a.laneOf (1, r.seq) = some 0) :=
  ⟨⟨issued none true, _, rfl⟩, ⟨on s0 loading c1, _, rfl, rfl, by decide +kernel⟩,
   ⟨issued none true, req, _, rfl, fun m => CellOp.noConfusion, by decide +kernel⟩⟩

/-- The delivery bound of a request ends, or not yet, and for a load or a store. -/
def Expires (s : State) (o : OutReq) : Prop :=
  let due := (if s.heldAtUnit o.req then s.ticks + 1 else max o.req.ts o.heldTo) + s.fabric.dbound.toNat +
    if isWaiting o.req.op then 64 * o.req.limit else 0
  due ≤ s.ticks

theorem witness_RequestsExpire :
    s0.ni.respEarly = [] ∧ s0.outReq? 1 0 = none ∧
    (∃ (s : State) (o : OutReq), s.ni.respEarly = [] ∧ s.outReq? 1 0 = some o ∧ o.sent = false) ∧
    (∃ (s : State) (o : OutReq), s.ni.respEarly = [] ∧ s.outReq? 1 0 = some o ∧ o.sent = true ∧ o.gone = false ∧ ¬Expires s o) ∧
    (∃ (s : State) (o : OutReq), s.ni.respEarly = [] ∧ s.outReq? 1 0 = some o ∧ o.sent = true ∧ o.gone = false ∧ Expires s o ∧
      o.queue = none ∧ o.req.target = 1 ∧ 1 ≠ s.ni.peer ∧ o.store = some 3) ∧
    (∃ (s : State) (o : OutReq) (a : Access), s.ni.respEarly = [] ∧ s.outReq? 1 0 = some o ∧ o.sent = true ∧ o.gone = false ∧ Expires s o ∧
      o.queue = none ∧ o.req.target = 1 ∧ 1 ≠ s.ni.peer ∧ o.store = none ∧ (s.dropReq 1 0).waiting? o.req.tid = some (.access a) ∧
      a.laneOf (1, 0) = some 0) :=
  ⟨rfl, rfl, ⟨issued none false, _, rfl, rfl, rfl⟩,
   ⟨{ issued none true with ticks := 1749999 }, outReq none true, by unfold Expires; decide +kernel⟩,
   ⟨{ issued (some 3) true with ticks := 1750000 }, outReq (some 3) true, by unfold Expires; decide +kernel⟩,
   ⟨{ issued none true with ticks := 1750000 }, outReq none true, _, rfl, rfl, rfl, rfl, by unfold Expires; decide +kernel, rfl, rfl,
     by decide, rfl, rfl, by decide +kernel⟩⟩

theorem witness_RequestsRepeat :
    (∃ o : OutReq, 0 ∈ o.otherDir) ∧ (∃ o : OutReq, 0 ∉ o.otherDir) ∧ s0.outReq? 1 0 = none ∧
    (∃ (s : State) (o : OutReq), s.outReq? 1 0 = some o ∧ o.sent = false) ∧
    (∃ (s : State) (o : OutReq), s.outReq? 1 0 = some o ∧ o.sent = true ∧ o.otherDir = [] ∧ o.route = []) ∧
    (∃ (s : State) (o : OutReq), s.outReq? 1 0 = some o ∧ o.sent = true ∧ o.otherDir = [] ∧ o.route = ((0, 0, 0), 1) :: []) ∧
    (∃ (s : State) (o : OutReq), s.outReq? 1 0 = some o ∧ o.sent = true ∧ o.otherDir ≠ [] ∧
      ∀ e ∈ s.sched.timers, e.2.2 ≠ .requestResend 1 0) ∧
    (∃ (s : State) (o : OutReq), s.outReq? 1 0 = some o ∧ o.sent = true ∧ o.otherDir ≠ [] ∧
      ∃ e ∈ s.sched.timers, e.2.2 = .requestResend 1 0) ∧
    s0.laneOwner (1, 0) = none ∧
    (∃ (s : State) (t : Tid) (a : Access) (th : Thread), s.laneOwner (1, 0) = some (t, a) ∧ s.thread? t = some th) :=
  let turned := { outReq none true with otherDir := [0] }
  ⟨⟨turned, by decide⟩, ⟨outReq none true, by decide⟩, rfl, ⟨issued none false, _, rfl, rfl⟩, ⟨issued none true, _, rfl, rfl, rfl, rfl⟩,
   ⟨issuing { outReq none true with route := [((0, 0, 0), 1)] }, _, rfl, rfl, rfl, rfl⟩,
   ⟨issuing turned, turned, rfl, rfl, by decide, by decide +kernel⟩,
   ⟨(issuing turned).after_ 65536 rankLast (.requestResend 1 0), turned, rfl, rfl, by decide,
     ⟨_, List.mem_of_elem_eq_true (a := (65536, rankLast, .requestResend 1 0)) (by decide +kernel), rfl⟩⟩,
   rfl, ⟨issued none true, _, _, _, rfl, rfl⟩⟩

/-- A thread that may migrate, one that may not, and one that lands. -/
def migrant : Thread := { loading with xsize := 32, vsize := 0 }
def small (landed : Option (Nat × Nat)) : SmallCtx :=
  { home := (1, ⟨0, 0⟩), landed := landed, asid := 1, kernel := 0, ranks := [2], pc := 0, xs := List.replicate 8 5, ms := [], fms := [], fcsr := 0,
    vtime := 0, tvec := 0, tepc := 0, tcause := 0, tval := 0, tsave := 0, chk := false, feretry := 1, detlvl := 0, wheelCount := 0, gap := 0, detCount := 0,
    cap := 0, cancel := false, pairs := [], back := false }
def mayMigrate (s : State) (th : Thread) : Prop :=
  th.xsize ≤ 32 ∧ th.vsize = 0 ∧ th.gang = .none ∧ th.regions = [] ∧ (s.dropReq 1 0).membersOf th.id = [] ∧
    ∀ r ∈ s.rxe.posted, r.drank ∉ (s.dropReq 1 0).ranksOf th.id.core

theorem witness_GlobalAccessesAndMigration_migration :
    Stands (fun s th => ∃ a l, th.run = .parked (.access a) ∧ a.lanes = [l] ∧ l.val = none ∧ l.sent = some (1, 0) ∧ mayMigrate s th) ∧
    Stands (fun _ th => ∃ a l, th.run = .parked (.access a) ∧ a.lanes = [l] ∧ l.val = none ∧ l.sent = some (1, 0) ∧ ¬th.xsize ≤ 32) ∧
    (∀ room, ∃ (s : State) (c : Ctx), (small none).landed = none ∧ (small none).back = false ∧ s.ctx? (small none).asid = some c ∧
      c.phase = .live ∧ (∀ x ∈ s.ni.transits, x.ctx.home ≠ (small none).home) ∧ (s.landingPlace c 8 0).isSome = room) ∧
    (2 ∈ (small none).ranks ∧ (small none).home.1 ≠ s0.ni.peer) ∧
    ((2 : Nat) ≠ 0 ∧ 2 < 128 ∧ (small none).xs[2]? = some 5) ∧
    ((small (some (1, 3))).landed = some (1, 3) ∧ 1 ≠ s0.ni.peer) :=
  ⟨stands (global) migrant ctxTbl ⟨_, _, rfl, rfl, rfl, rfl, by unfold mayMigrate; decide +kernel⟩,
   stands (global) loading ctxTbl ⟨_, _, rfl, rfl, rfl, rfl, by decide +kernel⟩,
   fun room => match room with
     | true => ⟨global, ctxTbl, rfl, rfl, rfl, rfl, by decide +kernel⟩
     | false => ⟨on s0 th0 { c1 with rows := [] }, { c1 with rows := [] }, rfl, rfl, rfl, rfl, by decide +kernel⟩,
   by decide +kernel, by decide +kernel, by decide +kernel⟩

/-! ### Witnesses: marks, storage errors, counters and contexts -/

theorem least {l : List W64} {w : W64} (h : (decide (w ∈ l) && l.all (fun x => decide (w.toNat ≤ x.toNat))) = true) :
    Statements.isLeast l w := by
  simp only [Bool.and_eq_true, decide_eq_true_eq, List.all_eq_true] at h
  exact h

theorem marks_lanes : ∀ e ∈ (on s0 (parked (.access (access8 lane8))) c1).threads, ∀ a, e.2.run = .parked (.access a) →
    ∀ l ∈ a.lanes, l.atUnit = false := by
  intro e he a ha l hl
  have : e = (tkey th0.id, parked (.access (access8 lane8))) := by simpa [on, s0, State.reset, parked, th0] using he
  subst this
  cases ha
  simp only [access8, List.mem_singleton] at hl
  subst hl
  rfl

theorem witness_MarksAreSampledAndPublished :
    (∃ (s : State) (c : Ctx), s.ctx? 1 = some c ∧ s.lwmInputs c = []) ∧ (∃ (s : State) (c : Ctx), s.ctx? 1 = some c ∧ s.lwmInputs c ≠ []) ∧
    (∃ s : State, s.det = [] ∧ s.ni.atUnit = [] ∧ s.ni.out = [] ∧ s.quarantine = [] ∧ s.queues = [] ∧ (∀ e ∈ s.ctxs, e.2.phase ≠ .destroying ∧ e.2.level = 0) ∧
      (∀ e ∈ s.threads, ∀ a, e.2.run = .parked (.access a) → ∀ l ∈ a.lanes, l.atUnit = false) ∧ s.ctxs ≠ []) ∧
    (∃ (s : State) (c : Ctx), s.ctxs = [(1, c)] ∧ c.spans = false ∧ Statements.isLeast (s.lwmInputs c) 0) ∧
    (∃ (s : State) (c : Ctx), s.ctxs = [(1, c)] ∧ c.spans = true ∧ s.lwmInputs c = []) ∧
    (∃ (s : State) (c : Ctx), s.ctxs = [(1, c)] ∧ c.spans = true ∧ Statements.isLeast (s.lwmInputs c) 0) ∧
    Statements.isLeast ((some 3 : Option W64).toList ++ [7, 9]) 3 ∧
    (∃ (s : State) (c : Ctx), s.ctx? 1 = some c ∧ s.ticks % 1024 ≠ 0) ∧
    (∃ (s : State) (c : Ctx), s.ctx? 1 = some c ∧ s.ticks % 1024 = 0 ∧ c.domSample.toList ++ [] = []) :=
  ⟨⟨{ s0 with ctxs := [(1, c1)] }, c1, by decide +kernel⟩, ⟨on s0 th0 c1, c1, by decide +kernel⟩,
   ⟨on s0 (parked (.access (access8 lane8))) c1, rfl, rfl, rfl, rfl, rfl, by decide +kernel, marks_lanes, by decide⟩,
   ⟨on s0 th0 c1, c1, rfl, rfl, least (by decide +kernel)⟩,
   ⟨{ s0 with ctxs := [(1, { c1 with spans := true })] }, { c1 with spans := true }, rfl, rfl, by decide +kernel⟩,
   ⟨on s0 th0 { c1 with spans := true }, { c1 with spans := true }, rfl, rfl, least (by decide +kernel)⟩,
   least (by decide +kernel), ⟨{ on s0 th0 c1 with ticks := 1023 }, c1, rfl, by decide⟩, ⟨{ on s0 th0 c1 with ticks := 1024 }, c1, rfl, by decide⟩⟩

theorem witness_ErrorsAreCountedAndPagesRewritten :
    s0.siteExists (.localCell 4608 0) = false ∧
    (∃ (s : State) (a : Nat), s.siteExists (.localCell 0 5) = true ∧ (s.errorCount (.localCell 0 5)).2 = some a) ∧
    (s0.siteExists (.dramGroup 3) = true ∧ (s0.errorCount (.dramGroup 3)).2 = none) ∧
    ((s0.errorCount (.dramGroup 3)).1 = 3 ∨ (s0.errorCount (.dramGroup 3)).1 = 5) ∧
    ((s0.errorCount (.codeWord 0 0)).1 ≠ 3 ∧ (s0.errorCount (.codeWord 0 0)).1 ≠ 5) ∧ s0.ctxs = [] ∧
    (∃ (s : State) (c : Ctx), s.ctxs = [(1, c)] ∧ c.asid = 1 ∧ c.mgmt = false ∧ c.phase = .live ∧ c.cnt % 8 = 0) :=
  ⟨by decide +kernel, ⟨on s0 th0 c1, 1, by decide +kernel⟩, by decide +kernel, by decide +kernel, by decide +kernel, rfl,
   ⟨on s0 th0 c1, c1, rfl, by decide +kernel⟩⟩

/-- A fault that is noted. -/
def faultRec : FaultRec :=
  { tick := 0, cause := .illegal, tid := none, kernel := 0, epc := 0, val := 0, tcause := 0, origin := 0, notice := false }
/-- What a saved context keeps. -/
def savedCtx : Ctx := { c1 with phase := .saved, saved := some { threads := [th0], cores := [], rows := [], mem := s0.mem, parts := [8, 8, 8, 8] } }

/-- A partition of VF 0: ASIDs 0 to 15, the first GiB of DRAM, every queue and 64 clusters; the firmware runs. -/
def part : List W64 := [1 ||| at_ 15 32, 0, BitVec.allOnes 64, BitVec.allOnes 64, 0, 0, 0, 0]
def bound (s : State := s0) : State :=
  { s with host := { s.host with boot := 3, parts := [(0, part)], vfs := [(0, { VfRec.reset with bound := some 0 })] } }
/-- A saved context, and a launch of another context that waits for its row. -/
def rivals : State :=
  { bound with ctxs := [(1, { savedCtx with rows := [0] }), (2, { c1 with asid := 2, rows := [] })],
               kernels := [(0, { Kernel.forWord with asid := 2, phase := .waiting, placed := [], created := 0 })] }

/-- Context 1 as its pre-emption marks it, with its threads stopped. -/
def stopped (s : State) (c : Ctx) : State :=
  let s1 := s.markStop c
  let c1 := (s1.ctx? 1).getD c
  ((((s1.threadsOf 1).map (·.id)).foldl State.stopThread s1).hurry 1).hurryEngines c1

theorem witness_ContextsEndAndReturn :
    (∃ (s : State) (c : Ctx), s.ctx? 1 = some c ∧ c.phase ≠ .ended ∧ c.phase ≠ .destroying ∧ c.faults ≠ []) ∧
    (∃ (s : State) (c : Ctx), s.ctx? 1 = some c ∧ c.phase = .ended) ∧ (∃ (s : State) (c : Ctx), s.ctx? 1 = some c ∧ c.faults = []) ∧
    (∃ (s : State) (c : Ctx), s.ctx? 1 = some c ∧ c.phase ≠ .live ∧ c.phase ≠ .stopping) ∧
    (∃ (s : State) (c : Ctx), s.ctx? 1 = some c ∧ c.phase = .live ∧
      (stopped s c).readyToSave c = true) ∧
    (∃ (s : State) (c : Ctx), s.ctx? 1 = some c ∧ c.phase = .live ∧
      (stopped s c).readyToSave c = false) ∧
    Stands (fun _ th => th.gang = .none ∧ th.regions ≠ []) ∧ Stands (fun _ th => th.gang = .none ∧ th.regions = [] ∧ th.run = .ready) ∧
    Stands (fun s th => th.gang = .none ∧ th.regions = [] ∧ th.run = .parked (.mbwait 0 1 0) ∧ (s.withdrawWait th).isSome = true) ∧
    Stands (fun s th => th.gang = .none ∧ th.regions = [] ∧ th.run = .parked (.divide 5 0) ∧ s.withdrawWait th = none) ∧
    (∃ (s : State) (c : Ctx), s.ctx? 1 = some c ∧ c.phase = .stopping) ∧
    (∃ (s : State) (c : Ctx) (v : Saved), s.ctx? 1 = some c ∧ c.saved = some v ∧ c.phase = .saved ∧ c.rows.all s.rowFree = true ∧
      s.outranked c = false ∧ s.mem.firstPoison c.save (64 + (v.parts.take 3).sum) = none ∧ v.threads.Pairwise (fun x y => tkey x.id ≠ tkey y.id)) ∧
    (∃ (s : State) (c : Ctx) (v : Saved), s.ctx? 1 = some c ∧ c.saved = some v ∧ c.phase = .saved ∧ c.rows.all s.rowFree = true ∧
      s.outranked c = false ∧ s.mem.firstPoison c.save (64 + (v.parts.take 3).sum) = some 0) ∧
    (∃ (s : State) (c : Ctx), s.ctx? 1 = some c ∧ c.phase = .saved ∧ s.outranked c = true) ∧
    (∃ (s : State) (c : Ctx), s.ctx? 1 = some c ∧ c.phase = .restoring ∧ (∀ r ∈ c.rows, (s.row r).queue = []) ∧
      ∀ l ∈ s.rxe.landings, l.hdr.asid = 1 → l.started = true) :=
  ⟨⟨on s0 th0 { c1 with faults := [faultRec] }, { c1 with faults := [faultRec] }, rfl, by decide +kernel⟩,
   ⟨on s0 th0 { c1 with phase := .ended }, { c1 with phase := .ended }, rfl, rfl⟩, ⟨on s0 th0 c1, c1, rfl, rfl⟩,
   ⟨on s0 th0 savedCtx, savedCtx, rfl, by decide +kernel⟩, ⟨on s0 th0 c1, c1, rfl, rfl, by decide +kernel⟩,
   ⟨on s0 (inside) c1, c1, rfl, rfl, by decide +kernel⟩, stands s0 (inside) c1 (by decide +kernel), stands s0 th0 c1 (by decide +kernel),
   stands s0 (parked (.mbwait 0 1 0)) c1 (by decide +kernel), stands s0 (parked (.divide 5 0)) c1 ⟨rfl, rfl, rfl, rfl⟩,
   ⟨on s0 th0 { c1 with phase := .stopping }, { c1 with phase := .stopping }, rfl, rfl⟩,
   ⟨on s0 th0 savedCtx, savedCtx, _, rfl, rfl, by decide +kernel⟩,
   ⟨on { s0 with mem := { s0.mem with poison := [(0, true)] } } th0 savedCtx, savedCtx, _, rfl, rfl, by decide +kernel⟩,
   ⟨rivals, { savedCtx with rows := [0] }, rfl, rfl, by decide +kernel⟩,
   ⟨on s0 th0 { c1 with phase := .restoring }, { c1 with phase := .restoring }, rfl, rfl, by decide +kernel⟩⟩

/-! ### Witnesses: queue packets -/

/-- Queue 0 of context 1, at work on a packet. -/
def queue (ws : List W64) : QueueRec := { QueueRec.reset with en := true, ctx := 1, packet := some ws, slots := 1, state := 1, mark := 5 }
def at_work (ws : List W64) (c : Ctx := c1) (s : State := bound) : State := { s with queues := [(0, queue ws)], ctxs := [(1, c)] }
/-- A packet of a type whose context is live stands at the head of a queue. -/
def Heads (ty : Nat) (P : State → Nat → Ctx → List W64 → Prop) : Prop :=
  ∃ (s : State) (q : Nat) (c : Ctx) (ws : List W64), Statements.atHead s q ty c ws ∧ P s q c ws
theorem heads {ty : Nat} {P : State → Nat → Ctx → List W64 → Prop} (s : State) (ws : List W64) (c : Ctx)
    (h : (packetType (wordAt ws 0) = ty ∧ c.phase = .live) ∧ P (at_work ws c s) 0 c ws) : Heads ty P :=
  ⟨at_work ws c s, 0, c, ws, ⟨by simp [at_work, State.queue, Tab.getD, Tab.find?, queue], by
    simp [at_work, State.queue, Tab.getD, Tab.find?, queue, State.ctx?], h.1.2, h.1.1⟩, h.2⟩

/-- An idle enabled queue of context 1 whose ring holds one packet. -/
def ringed : State :=
  { bound with queues := [(0, { QueueRec.reset with en := true, ctx := 1, tail := 1, state := 1 })], ctxs := [(1, c1)] }
/-- LAUNCH: one thread with 8 x registers that owns no wheel position. -/
def launchWs : List W64 := [1, at_ 8 18 ||| at_ 1 45, 0, 0, 0, 0, 0, 0]
def kernel : Kernel := launchKernel 0 1 0 launchWs []
/-- Kernel 3 of context 1 in a phase. -/
def launched (k : Kernel) (c : Ctx := c1) : State := { at_work launchWs c with kernels := [(3, k)] }
def noClusters : State := { bound with host := { (bound).host with parts := [] } }

theorem witness_QueuePacketsRun :
    (s0.chooseQueue = none) ∧ (∃ (s : State) (q : Nat), s.chooseQueue = some q) ∧
    ((1, Instr.launch 0) ∈ [(1, Instr.launch 0), (2, .fencePacket 0)]) ∧
    Heads 1 (fun s q c ws => s.launchFault c ws (launchKernel q c.asid c.level ws (s.launchList ws)) = some 0x02) ∧
    Heads 1 (fun s q c ws => s.launchFault c ws (launchKernel q c.asid c.level ws (s.launchList ws)) = none) ∧
    (∃ (s : State) (n : Nat) (k : Kernel) (c : Ctx), s.kernels.find? n = some k ∧ s.ctx? k.asid = some c ∧ k.phase ≠ .waiting) ∧
    (∃ (s : State) (n : Nat) (k : Kernel) (c : Ctx), s.kernels.find? n = some k ∧ s.ctx? k.asid = some c ∧ k.phase = .waiting ∧
      c.phase = .live ∧ s.planHeld n k = false ∧ c.rows ≠ [] ∧ c.exch ≠ k.exch) ∧
    (∃ (s : State) (n : Nat) (k : Kernel) (c : Ctx), s.kernels.find? n = some k ∧ s.ctx? k.asid = some c ∧ k.phase = .waiting ∧
      c.phase = .live ∧ s.planHeld n k = false ∧ c.exch = k.exch ∧ s.placeNow c k = none) ∧
    (∀ first, ∃ (s : State) (n : Nat) (k : Kernel) (c : Ctx), s.kernels.find? n = some k ∧ s.ctx? k.asid = some c ∧ k.phase = .waiting ∧
      c.phase = .live ∧ s.planHeld n k = false ∧ c.exch = k.exch ∧ (s.placeNow c k).any (fun l =>
        (s.restoresFirst (s.queue k.queue).prio (l.map (·.1 / 4))).isEmpty != first) = true) ∧
    (∃ (s : State) (n : Nat) (k : Kernel), s.kernels.find? n = some k ∧ k.phase = .dispatched ∧
      let batch := (k.placed.drop k.created).take 64
      k.created + batch.length < k.count ∧ batch ≠ []) ∧
    (∃ (s : State) (n : Nat) (k : Kernel), s.kernels.find? n = some k ∧ k.phase = .dispatched ∧
      k.count ≤ k.created + ((k.placed.drop k.created).take 64).length ∧ (s.queue k.queue).begun = true ∧
      packetType (wordAt (s.queue k.queue).words 0) = 1) ∧
    (∃ (s : State) (n : Nat) (k : Kernel), s.kernels.find? n = some k ∧ k.phase = .dispatched ∧
      k.count ≤ k.created + ((k.placed.drop k.created).take 64).length ∧ (s.queue k.queue).begun = false) :=
  ⟨rfl, ⟨ringed, 0, by decide +kernel⟩, by decide, heads bound [1, 0, 0, 0, 0, 0, 0, 0] c1 (by decide +kernel),
   heads bound launchWs c1 (by decide +kernel), ⟨launched { kernel with phase := .retired }, 3, _, c1, rfl, rfl, by decide⟩,
   ⟨launched { kernel with exch := 1 }, 3, { kernel with exch := 1 }, c1, rfl, rfl, rfl, rfl, by decide +kernel⟩,
   ⟨{ launched kernel with host := noClusters.host }, 3, kernel, c1, rfl, rfl, rfl, rfl, by decide +kernel⟩,
   fun first => match first with
     | false => ⟨launched kernel, 3, kernel, c1, rfl, rfl, rfl, rfl, by decide +kernel⟩
     | true => ⟨{ launched kernel { c1 with rows := [] } with
         ctxs := [(1, { c1 with rows := [] }), (2, { savedCtx with asid := 2, rows := [0] })],
         kernels := [(3, kernel), (4, { kernel with asid := 2, phase := .dispatched })] }, 3, kernel, { c1 with rows := [] },
         rfl, rfl, rfl, rfl, by decide +kernel⟩,
   ⟨launched { kernel with phase := .dispatched, count := 65, placed := List.replicate 65 (0, 0, 0, 0, 0) }, 3, _, rfl, rfl, by decide +kernel⟩,
   ⟨{ launched { kernel with phase := .dispatched, placed := [(0, 0, 0, 0, 0)] } with queues := [(0, { queue launchWs with begun := true })] },
    3, _, rfl, rfl, by decide +kernel⟩,
   ⟨launched { kernel with phase := .dispatched, placed := [(0, 0, 0, 0, 0)] }, 3, _, rfl, rfl, by decide +kernel⟩⟩

/-- FENCE of one condition on the doubleword at DRAM address 8, and SIGNAL of that cell. -/
def fenceWs : List W64 := [2 ||| at_ 1 8, 8, 0, 0, 0, 0, 0, 0]
def signalWs (a : W64 := 8) (flags : W64 := 0) : List W64 := [3, a, 0, flags, 0, 0, 0, 0]
/-- Context 1 may read and write the first page of DRAM. -/
def poisoned (k : Nat) (s : State) : State := { s with mem := { s.mem with poison := [(k, true)] } }

theorem witness_QueuePacketsRun_fences :
    Heads 2 (fun s _ c ws => s.fenceFault c ws = some 0x01) ∧ Heads 2 (fun s _ c ws => s.fenceFault c ws = none) ∧
    Heads 2 (fun s q _ ws => (s.queue q).cond < condCount ws ∧
      s.mem.poisoned ((condAddr ws (s.queue q).cond).toNat / 8) = false ∧ (s.queue q).cond + 1 = condCount ws) ∧
    Heads 2 (fun s q _ ws => (s.queue q).cond < condCount ws ∧
      s.mem.poisoned ((condAddr ws (s.queue q).cond).toNat / 8) = true) ∧
    Heads 2 (fun s q _ ws => condCount ws ≤ (s.queue q).cond) ∧
    Heads 3 (fun s q c ws => (s.queue q).begun = false ∧ s.signalFault c ws = some 0x02 ∧ s.signalAllowed c ws = false) ∧
    Heads 3 (fun s q c ws => (s.queue q).begun = false ∧ s.signalFault c ws = none ∧ s.earlierKernels q = true) ∧
    Heads 3 (fun s q c ws => (s.queue q).begun = false ∧ s.signalFault c ws = none ∧ s.earlierKernels q = false ∧
      (∀ t ∈ s.sched.timers, t.2.2 ≠ .signalWrite q) ∧ .signalWrite q ∉ s.sched.agenda ∧ s.signalAllowed c ws = true ∧
      signalHost ws = false ∧ bit (signalAddr ws) 63 = false ∧ signalIrq ws = false) ∧
    Heads 3 (fun s q c ws => (s.queue q).begun = false ∧ s.signalAllowed c ws = true ∧ signalHost ws = true ∧ signalIrq ws = true) ∧
    Heads 3 (fun s q c ws => (s.queue q).begun = false ∧ s.signalAllowed c ws = true ∧ signalHost ws = false ∧
      bit (signalAddr ws) 63 = true) :=
  ⟨heads bound [2 ||| at_ 1 12, 0, 0, 0, 0, 0, 0, 0] c1 (by decide +kernel), heads bound fenceWs c1 (by decide +kernel),
   heads bound fenceWs c1 (by decide +kernel), heads (poisoned 1 bound) fenceWs c1 (by decide +kernel),
   heads bound [2, 0, 0, 0, 0, 0, 0, 0] c1 (by decide +kernel), heads bound (signalWs) c0 (by decide +kernel),
   heads { bound with kernels := [(0, { kernel with phase := .dispatched })] } (signalWs) c1 (by decide +kernel),
   heads bound (signalWs) c1 (by decide +kernel), heads bound (signalWs 8 3) c1 (by decide +kernel),
   heads { bound with ni := (global).ni } (signalWs ((1 <<< 63 : W64) ||| at_ 1 52)) c1 (by decide +kernel)⟩

/-! ### Witnesses: packets that configure, and queue registers -/

/-- A context whose tables are at DRAM page 1, with room for n pages of them, and PIN of the first 2 MiB page at frame f. -/
def pinning (n : Nat) : Ctx := { c1 with tbl := 0x1000, pages := BitVec.ofNat 64 n |>.toNat }
def pinWs (f : Nat := 0) (flags : W64 := 0) : List W64 := [4, 0, at_ f 0, 1 ||| flags, 0, 0, 0, 0]
/-- The checks of a PIN up to its partition hold. -/
def pinFits (s : State) (c : Ctx) (ws : List W64) : Bool :=
  let page := if pageBig ws then 2 ^ 30 else 2 ^ 21
  !layoutBad ws && !bit (wordAt ws 3) 19 && !pagesRange ws && pinFrame ws % page = 0 &&
    (s.partOf c.vf).any (fun r => partHasDram r (pinFrame ws) (pageCount ws * page))
/-- Its level-1 and level-2 entries are there: with a leaf, and without. -/
def unmapped : State := { bound with mem := (holding 0x1000 [at_ 2 12 ||| 1]).writeN 0x2000 (wordBytes [at_ 3 12 ||| 1]) }
def mapped : State := { bound with mem := tables 0xC }
def viewWs (w0 w1 : W64) (n : W64 := 0) : List W64 := [6, w0, w1, n, 0, 0, 0, 0]
def loadWs (dst len : Nat) : List W64 := [7, 0, at_ dst 2 ||| at_ len 18, 0, 0, 0, 0, 0]
/-- Context 1 beside another context of its partition that holds code from 0 on. -/
def beside : State := { at_work (loadWs 0 64) (c1) with ctxs := [(1, { c1 with code := [] }), (2, { c1 with asid := 2 })] }

/-- A page that an UNPIN has marked: that of frame 0. -/
def marked : List (Nat × W64 × Bool) := [(0, 0xD, false)]

theorem witness_QueuePacketsConfigure_pins :
    Heads 4 (fun _ _ _ ws => layoutBad ws = true) ∧
    Heads 4 (fun _ _ _ ws => layoutBad ws = false ∧ pinFrame ws % 2 ^ 21 ≠ 0 ∧ pageBig ws = false) ∧
    Heads 4 (fun s _ c ws => layoutBad ws = false ∧ pagesRange ws = false ∧ pinFrame ws % 2 ^ 21 = 0 ∧ s.partOf c.vf = none) ∧
    Heads 4 (fun s _ c ws => (s.partOf c.vf).any (fun r => !partHasDram r (pinFrame ws) (2 ^ 21)) = true) ∧
    Heads 4 (fun s _ c ws => pinFits s c ws = true ∧ (pinAll s.mem c ws).isNone = true) ∧
    Heads 4 (fun s _ c ws => pinFits s c ws = true ∧ (pinAll s.mem c ws).isSome = true ∧ s.quarantine = []) ∧
    Heads 4 (fun s _ c ws => pinFits s c ws = true ∧ (pinAll s.mem c ws).isSome = true ∧
      ∃ f ∈ s.quarantine, pinFrame ws < f.1 + f.2.1 ∧ f.1 < pinFrame ws + 2 ^ 21) ∧
    Heads 4 (fun s _ c ws => pinFits s c ws = true ∧ (pinAll s.mem c ws).isSome = true ∧ ∃ e ∈ s.queues, ∃ x ∈ e.2.unpins,
      pinFrame ws < fld x.2.1 21 18 * 2 ^ 21 + (if x.2.2 then 2 ^ 30 else 2 ^ 21) ∧ fld x.2.1 21 18 * 2 ^ 21 < pinFrame ws + 2 ^ 21) ∧
    Heads 5 (fun s q _ ws => (s.queue q).cond = 0 ∧ layoutBad ws = true) ∧
    Heads 5 (fun s q _ ws => (s.queue q).cond = 0 ∧ layoutBad ws = false ∧ pagesRange ws = true) ∧
    Heads 5 (fun s q c ws => (s.queue q).begun = false ∧ (s.queue q).cond = 0 ∧ layoutBad ws = false ∧ pagesRange ws = false ∧
      ∃ v ∈ (List.range (pageCount ws)).map (fun i => pageVa ws + i * pageBytes (pageBig ws)), leafOf s.mem c v (pageBig ws) = none) ∧
    Heads 5 (fun s q c ws => (s.queue q).cond = 0 ∧ layoutBad ws = false ∧ pagesRange ws = false ∧
      (∀ v ∈ (List.range (pageCount ws)).map (fun i => pageVa ws + i * pageBytes (pageBig ws)), leafOf s.mem c v (pageBig ws) ≠ none) ∧
      pageCount ws ≤ 4096 ∧ (s.queue q).unpins = [] ∧ s.quarantine = []) ∧
    (∃ (s : State) (c : Ctx) (a : Nat) (e : W64), leafOf s.mem c 0 false = some (a, e)) :=
  ⟨heads bound [4, 0, 0, at_ 1 20, 0, 0, 0, 0] c1 (by decide +kernel), heads bound (pinWs 4096) c1 (by decide +kernel),
   heads s0 (pinWs) c1 (by decide +kernel), heads bound (pinWs (2 ^ 30)) c1 (by decide +kernel),
   heads mapped (pinWs) (pinning 17) (by decide +kernel), heads unmapped (pinWs) (pinning 17) (by decide +kernel),
   heads { unmapped with quarantine := [(0, 2 ^ 21, 0)] } (pinWs) (pinning 17) (by decide +kernel),
   ⟨{ at_work (pinWs) (pinning 17) unmapped with queues := [(0, { queue (pinWs) with unpins := marked })] }, 0, pinning 17, pinWs, ⟨rfl, rfl, rfl, rfl⟩,
     by decide +kernel⟩,
   heads bound [5, 0, 0, at_ 1 17, 0, 0, 0, 0] c1 (by decide +kernel), heads bound [5, 0, 0, 0, 0, 0, 0, 0] c1 (by decide +kernel),
   heads bound [5, 0, 0, 1, 0, 0, 0, 0] (pinning 17) (by decide +kernel),
   heads mapped [5, 0, 0, 1, 0, 0, 0, 0] (pinning 17) (by decide +kernel), ⟨mapped, pinning 17, _, _, rfl⟩⟩

/-- An UNPIN that has marked its page and finds 4,096 frames in quarantine. -/
def crowded : State :=
  { at_work [5, 0, 0, 1, 0, 0, 0, 0] (pinning 17) mapped with
    queues := [(0, { queue [5, 0, 0, 1, 0, 0, 0, 0] with unpins := marked, begun := true })], quarantine := List.replicate 4096 (0, 0, 0) }

theorem witness_QueuePacketsConfigure_full :
    Heads 5 (fun s q _ ws => (s.queue q).cond = 0 ∧ layoutBad ws = false ∧ pagesRange ws = false ∧ (s.queue q).begun = true ∧
      pageCount ws ≤ 4096 ∧ (s.queue q).unpins ≠ [] ∧ ¬s.quarantine.length + (s.queue q).unpins.length ≤ 4096) :=
  ⟨crowded, 0, pinning 17, [5, 0, 0, 1, 0, 0, 0, 0], ⟨rfl, rfl, rfl, rfl⟩, rfl, by decide, by decide, rfl, by decide, by decide, by
    have : crowded.quarantine.length = 4096 := List.length_replicate ..
    have : (crowded.queue 0).unpins.length = 1 := rfl
    omega⟩

theorem fold_unmarked (s : State) (q : Nat) (c : Ctx) (big : Bool) (h : ∀ v, leafOf s.mem c v big = none) (l : List Nat) :
    l.foldl (fun st v => st.markPage q c big v) s = s := by
  induction l with
  | nil => rfl
  | cons v r ih => simp only [List.foldl_cons, State.markPage, h]; exact ih

theorem no_leaf (c : Ctx) (v : Nat) (big : Bool) : leafOf s0.mem c v big = none := by
  have : s0.mem.word (l1Entry c v) = 0 := by
    simp only [Memory.word, Memory.readN, Memory.read, Memory.poisoned, Memory.byte, s0, State.reset, Tab.getD, Tab.find?]
    rfl
  simp [leafOf, this, bit]

/-- An UNPIN of 4,097 pages that has begun. -/
def longUnpin : State :=
  { at_work [5, 0, 0, 4097, 0, 0, 0, 0] (pinning 17) with queues := [(0, { queue [5, 0, 0, 4097, 0, 0, 0, 0] with begun := true })] }
theorem witness_QueuePacketsConfigure_runs :
    Heads 5 (fun s q _ ws => (s.queue q).cond = 0 ∧ layoutBad ws = false ∧ pagesRange ws = false ∧ 4096 < pageCount ws ∧
      (s.queue q).unpins = [] ∧ (s.queue q).begun = true ∧
      let s1 := (((List.range (pageCount ws)).map (fun i => pageVa ws + i * pageBytes (pageBig ws))).take 4096).foldl
        (fun st v => st.markPage q (pinning 17) (pageBig ws) v) s
      s1.quarantine.length + (s1.queue q).unpins.length ≤ 4096) :=
  ⟨longUnpin, 0, pinning 17, [5, 0, 0, 4097, 0, 0, 0, 0], ⟨rfl, rfl, rfl, rfl⟩, rfl, by decide +kernel, by decide +kernel, by decide +kernel, rfl, rfl, by
     rw [fold_unmarked longUnpin 0 (pinning 17) _ (fun v => no_leaf (pinning 17) v _)]
     decide +kernel⟩

theorem witness_QueuePacketsConfigure_code :
    Heads 6 (fun _ _ _ ws => layoutBad ws = true) ∧ Heads 6 (fun _ _ c _ => bit c.features 9 = false) ∧
    Heads 6 (fun _ _ c ws => layoutBad ws = false ∧ bit c.features 9 = true ∧ fld (wordAt ws 1) 8 3 = 7) ∧
    Heads 6 (fun _ _ c ws => layoutBad ws = false ∧ bit c.features 9 = true ∧ bit (wordAt ws 1) 0 = false ∧ wordAt ws 2 ≠ 0) ∧
    Heads 6 (fun _ _ c ws => layoutBad ws = false ∧ bit c.features 9 = true ∧ fld (wordAt ws 1) 8 3 ≠ 7 ∧ fld (wordAt ws 1) 11 3 ≠ 7 ∧
      bit (wordAt ws 1) 0 = true ∧ 16 < fld (wordAt ws 1) 3 5) ∧
    Heads 6 (fun _ _ c ws => layoutBad ws = false ∧ bit c.features 9 = true ∧ fld (wordAt ws 1) 8 3 ≠ 7 ∧ fld (wordAt ws 1) 11 3 ≠ 7 ∧
      fld (wordAt ws 1) 3 5 ≤ 16 ∧ bit (wordAt ws 1) 0 = true ∧ viewOk c (viewRec (wordAt ws 1, wordAt ws 2)) = true) ∧
    Heads 6 (fun _ _ c ws => layoutBad ws = false ∧ bit c.features 9 = true ∧ fld (wordAt ws 1) 8 3 ≠ 7 ∧ fld (wordAt ws 1) 11 3 ≠ 7 ∧
      fld (wordAt ws 1) 3 5 ≤ 16 ∧ bit (wordAt ws 1) 0 = true ∧ viewOk c (viewRec (wordAt ws 1, wordAt ws 2)) = false) ∧
    Heads 6 (fun _ _ c ws => layoutBad ws = false ∧ bit c.features 9 = true ∧ wordAt ws 1 = 0 ∧ wordAt ws 2 = 0) ∧
    Heads 7 (fun _ _ _ ws => layoutBad ws = true) ∧
    Heads 7 (fun _ _ _ ws => layoutBad ws = false ∧ fld (wordAt ws 2) 18 19 < 4) ∧
    Heads 7 (fun _ _ c ws => layoutBad ws = false ∧ c.segAllows 0 64 true false = true ∧
      0x40000 < fld (wordAt ws 2) 2 16 * 4 + fld (wordAt ws 2) 18 19) ∧
    Heads 7 (fun s _ c ws => layoutBad ws = false ∧ c.segAllows 0 64 true false = true ∧ s.codeTaken c 0 64 = false ∧
      fld (wordAt ws 2) 18 19 = 64) ∧
    beside.codeTaken { c1 with code := [] } 0 64 = true ∧
    (∃ (s : State) (c : Ctx) (b : List Byte), s.ctx? c.asid = some c ∧ b ≠ [] ∧ c.clusters ≠ []) :=
  ⟨heads bound (viewWs 0 0 (at_ 1 12)) c1 (by decide +kernel), heads bound (viewWs 0 0) { c1 with features := 0 } (by decide +kernel),
   heads bound (viewWs (1 ||| at_ 7 8) 0) c1 (by decide +kernel), heads bound (viewWs 0 1) c1 (by decide +kernel),
   heads bound (viewWs (1 ||| at_ 17 3) 0) c1 (by decide +kernel), heads bound (viewWs 1 0) c1 (by decide +kernel),
   heads bound (viewWs 1 64) c1 (by decide +kernel), heads bound (viewWs 0 0) c1 (by decide +kernel),
   heads bound [7, 0, 1, 0, 0, 0, 0, 0] c1 (by decide +kernel), heads bound (loadWs 0 0) c1 (by decide +kernel),
   heads bound (loadWs 0xFFFF 64) c1 (by decide +kernel), heads bound (loadWs 0 64) c1 (by decide +kernel), by decide +kernel,
   ⟨on s0 th0 c1, c1, [1], rfl, by decide, by decide⟩⟩

theorem witness_QueuePacketsConfigure_levels :
    Heads 8 (fun _ _ _ ws => fld (wordAt ws 1) 0 2 = 3) ∧ Heads 8 (fun _ _ c ws => fld (wordAt ws 1) 0 2 = 1 ∧ bit c.features 6 = false) ∧
    Heads 8 (fun s q c ws => layoutBad ws = false ∧ fld (wordAt ws 1) 0 2 = 1 ∧ bit c.features 6 = true ∧
      ∃ e ∈ s.kernels, e.2.asid = c.asid ∧ e.1 < (s.queue q).mark ∧ e.2.phase ≠ .retired) ∧
    Heads 8 (fun s _ c ws => layoutBad ws = false ∧ fld (wordAt ws 1) 0 2 = 1 ∧ bit c.features 6 = true ∧ s.kernels = []) ∧
    Heads 9 (fun _ _ c _ => bit c.features 7 = false) ∧
    Heads 9 (fun _ _ c ws => layoutBad ws = false ∧ bit c.features 7 = true ∧ (wordAt ws 1).toNat % 64 ≠ 0) ∧
    Heads 9 (fun s _ c ws => layoutBad ws = false ∧ bit c.features 7 = true ∧ (wordAt ws 1).toNat = 0 ∧
      fld (wordAt ws 2) 8 16 = 1 ∧ planFault (wordsOf 8 (s.dramBytes 0 64)) = some 0x01) ∧
    Heads 9 (fun s _ c ws => layoutBad ws = false ∧ bit c.features 7 = true ∧ (wordAt ws 1).toNat = 0 ∧
      fld (wordAt ws 2) 8 16 = 0 ∧ planFault (wordsOf 0 (s.dramBytes 0 0)) = none ∧ s.kernels = []) ∧
    Heads 9 (fun s _ c ws => layoutBad ws = false ∧ bit c.features 7 = true ∧ (wordAt ws 1).toNat = 0 ∧
      planFault (wordsOf 0 (s.dramBytes 0 0)) = none ∧
      ∃ e ∈ s.kernels, e.2.detlvl = 2 ∧ e.2.planen = true ∧ e.2.plan = fld (wordAt ws 2) 0 4 ∧ e.2.phase = .dispatched) :=
  ⟨heads bound [8, 3, 0, 0, 0, 0, 0, 0] c1 (by decide +kernel), heads bound [8, 1, 0, 0, 0, 0, 0, 0] { c1 with features := 0 } (by decide +kernel),
   heads { bound with kernels := [(0, kernel)] } [8, 1, 0, 0, 0, 0, 0, 0] c1 (by decide +kernel),
   heads bound [8, 1, 0, 0, 0, 0, 0, 0] c1 (by decide +kernel), heads bound [9, 0, 0, 0, 0, 0, 0, 0] { c1 with features := 0 } (by decide +kernel),
   heads bound [9, 1, 0, 0, 0, 0, 0, 0] c1 (by decide +kernel),
   heads { bound with mem := holding 0 [at_ 1 63] } [9, 0, at_ 1 8, 0, 0, 0, 0, 0] c1 (by decide +kernel),
   heads bound [9, 0, 0, 0, 0, 0, 0, 0] c1 (by decide +kernel),
   heads { bound with kernels := [(0, { kernel with detlvl := 2, planen := true, phase := .dispatched })] } [9, 0, 0, 0, 0, 0, 0, 0] c1 (by decide +kernel)⟩

theorem witness_QueueRegistersAreWritten :
    (s0.queueVf 0 = none) ∧
    (∃ (s : State) (n : Nat), s.queueVf 0 = some n ∧ s.host.trip = true) ∧
    (∃ (s : State) (n : Nat), s.queueVf 0 = some n ∧ (s.queue 0).packet ≠ none ∧ (s.queue 0).begun = false ∧ (s.queue 0).state ≠ 3 ∧
      s.host.trip = false ∧ ∀ e ∈ (s.launchDue 0).dispatchDue.kernels, e.2.queue = 0 → e.2.lid ≠ (5 : W64).toNat % 2 ^ 32) ∧
    (∃ (s : State) (n : Nat), s.queueVf 0 = some n ∧ (s.queue 0).begun = true) ∧
    (∃ (s : State) (n : Nat), s.queueVf 0 = some n ∧ (s.queue 0).state = 3) ∧
    (∃ (s : State) (n key : Nat) (k : Kernel), s.queueVf 0 = some n ∧ (s.launchDue 0).dispatchDue.kernels = [(key, k)] ∧ k.queue = 0 ∧
      k.lid = (0 : W64).toNat % 2 ^ 32) :=
  ⟨by decide +kernel, ⟨let s := at_work launchWs; { s with host := { s.host with trip := true } }, 0, by decide +kernel⟩,
   ⟨at_work launchWs, 0, by decide +kernel⟩,
   ⟨{ at_work launchWs with queues := [(0, { queue launchWs with begun := true })] }, 0, by decide +kernel⟩,
   ⟨{ bound with queues := [(0, { QueueRec.reset with state := 3 })] }, 0, by decide +kernel⟩,
   ⟨launched kernel, 0, 3, kernel, by decide +kernel, rfl, by decide +kernel⟩⟩

/-! ### Witnesses: links, lanes and ports -/

/-- The machine with one link changed, and with lane 0 of link 3 so. -/
def linked (l : Nat) (f : Link → Link) : State := s0.modLink l f
def laned (x : FibLane) : State := linked 3 (fun k => k.setLane 0 (fun _ => x))
def lane (st : LaneState) (due : Bool := false) (tries : Nat := 0) : FibLane := { FibLane.reset with state := st, due := due, tries := tries }
/-- A flit of zeros with LSEQ n, whose CRC is right for n = 0. -/
def flit (n : Nat) : Flit := { payload := List.replicate 64 0, trailer := at_ n 6 ||| at_ 3624748776 32 }

/-- A snapshot of the counters is due in this tick. -/
def snapping (s : State := s0) : State := { s with sched := { s.sched with agenda := [.counterSnapshot] } }

theorem witness_SnapshotsComeFirst :
    (∃ s : State, .counterSnapshot ∈ s.sched.agenda ∧ (s.link 3).failed = false ∧ (s.link 3).attaching = false ∧ (s.link 3).port ≤ 5 ∧
      flitCrcOk (flit 0) = true ∧ flitLseq (flit 0) = (s.link 3).expect ∧ ((s.link 3).lane 0).state ≠ .train ∧
      ((s.link 3).lane 0).state ≠ .failed) ∧
    (∃ s : State, .counterSnapshot ∈ s.sched.agenda ∧ (s.port 0).state ≠ .active) :=
  ⟨⟨snapping, by decide +kernel⟩, ⟨snapping, by decide +kernel⟩⟩

theorem witness_LinksRetrainAndFail :
    .counterSnapshot ∉ s0.sched.agenda ∧
    (∃ s : State, (s.link 3).attaching = true) ∧
    (flitCrcOk (flit 0) = true ∧ flitLseq (flit 0) = (s0.link 3).expect ∧ (s0.link 3).failed = false) ∧
    flitCrcOk (flit 1) = false ∧ (∃ s : State, (s.link 3).failed = true) ∧
    (∃ s : State, (s.link 3).failed = false ∧ 16 ≤ ((s.link 3).replayTicks.filter (fun t => s.ticks < t + 65536)).length) ∧
    (∃ (s : State) (i : Nat) (r : List Nat), (s.link 3).failed = false ∧
      (List.range 8).filter (fun i => ((s.link 3).lane i).due && ((s.link 3).lane i).state == .up) = i :: r ∧
      ∀ x ∈ (s.link 3).lanes, x.state = .up) ∧
    (∃ (s : State) (i : Nat) (r : List Nat), (s.link 3).failed = false ∧
      (List.range 8).filter (fun i => ((s.link 3).lane i).due && ((s.link 3).lane i).state == .up) = i :: r ∧
      (¬∃ x ∈ (s.link 3).lanes, x.state = .handback ∨ x.state = .train ∨ x.state = .ret) ∧
      ∃ x ∈ (s.link 3).lanes, x.state = .failed) ∧
    (∀ st ∈ [LaneState.handback, .train, .ret, .up, .failed], ∃ s : State, ((s.link 3).lane 0).state = st ∧ (s.link 3).failed = false) ∧
    (∃ s : State, ((s.link 3).lane 0).state = .train ∧ ((s.link 3).lane 0).tries ≠ 0 ∧ (s.link 3).failed = false) ∧
    ((s0.link 120).port = 7 ∧ (s0.link 3).port ≤ 5 ∧ (s0.breakLink 3).attachesTo (fun _ => true) < (s0.breakLink 3).freeSpares.length) ∧
    (∃ s : State, s.freeSpares ≠ [] ∧ 20 ≤ s.holding 0) ∧ (∃ s : State, s.freeSpares ≠ [] ∧ s.holding 0 < 20) ∧
    ((s0.link 3).attaching = false) ∧
    (∃ s : State, (s.link 3).attaching = true ∧ (s.link 3).spareFails = 0 ∧ (s.port (s.link 3).port).state = .relock ∧
      s.pairsOf (s.link 3).port = []) ∧
    (∃ s : State, (s.link 3).attaching = true ∧ (s.link 3).spareFails ≠ 0 ∧ (s.port (s.link 3).port).state ≠ .relock ∧
      let s1 := s.modLink 3 (fun k => { k with attaching := false, failed := true, spareFails := 2 })
      s1.attachesTo (fun _ => true) < s1.freeSpares.length) ∧
    (∃ s : State, (s.link 3).attaching = true ∧ (s.link 3).spareFails ≠ 0 ∧
      let s1 := s.modLink 3 (fun k => { k with attaching := false, failed := true, spareFails := 2 })
      s1.freeSpares.length ≤ s1.attachesTo (fun _ => true)) ∧
    (∃ s : State, s.freeSpares = [] ∧ (s.breakLink 3).freeSpares.length ≤ (s.breakLink 3).attachesTo (fun _ => true) ∧
      (s.link 3).failed = false ∧
      let again := (s.breakLink 3).resendFrom 0
      again.pairsOf 0 = [] ∧ (again.port 0).state = .active) ∧
    (∃ s : State, (s.breakLink 3).freeSpares.length ≤ (s.breakLink 3).attachesTo (fun _ => true) ∧ (s.link 3).failed = false ∧
      ((s.breakLink 3).resendFrom 0).pairsOf 0 ≠ []) ∧
    (∃ s : State, .laneWindowStart ∈ s.sched.agenda ∧ (s.link 3).failed = false ∧ ((s.link 3).lane 0).state = .up) ∧
    (.laneWindowStart ∉ s0.sched.agenda) ∧
    (∃ m r, (s0.breakLink 3).pairsOf 0 = m :: r) :=
  let noSpares := fun (p : Nat) (s : State) => (List.range 128).foldl (fun s i => s.modLink i (fun k => { k with port := if i = 3 then 0 else p })) s
  ⟨by decide, ⟨linked 3 (fun k => { k with attaching := true }), by decide +kernel⟩, by decide +kernel, by decide +kernel,
   ⟨linked 3 (fun k => { k with failed := true }), by decide +kernel⟩,
   ⟨linked 3 (fun k => { k with replayTicks := List.replicate 16 0 }), by decide +kernel⟩,
   ⟨laned (lane .up true), 0, [], by decide +kernel⟩,
   ⟨linked 3 (fun k => (k.setLane 0 (fun _ => lane .up true)).setLane 7 (fun _ => lane .failed)), 0, [], by decide +kernel⟩,
   fun st _ => ⟨laned (lane st), by cases st <;> decide +kernel⟩, ⟨laned (lane .train false 1), by decide +kernel⟩,
   by decide +kernel, ⟨s0, by decide +kernel⟩, ⟨linked 0 (fun k => { k with failed := true }), by decide +kernel⟩, by decide +kernel,
   ⟨noSpares 5 ((linked 3 (fun k => { k with attaching := true })).modPort 0 (fun r => { r with state := .relock })), by decide +kernel⟩,
   ⟨linked 3 (fun k => { k with attaching := true, spareFails := 1 }), by decide +kernel⟩,
   ⟨noSpares 5 (linked 3 (fun k => { k with attaching := true, spareFails := 1 })), by decide +kernel⟩,
   ⟨noSpares 5 (s0.modPort 0 (fun r => { r with state := .active })), by decide +kernel⟩,
   ⟨noSpares 0 s0, by decide +kernel⟩,
   ⟨{ s0 with sched := { s0.sched with agenda := [.laneWindowStart] } }, by decide +kernel⟩, by decide +kernel,
   0, [1, 2] ++ (List.range 20).drop 4, by decide +kernel⟩

/-- Port p in a state; the fabric control block is at 0x8000 and its PCMD cell of port 0, or PTCMD, holds a word. -/
def ported (p : Nat) (st : PortState) (acked : Bool := false) (markers : Nat := 0) : State :=
  s0.modPort p (fun r => { r with state := st, acked := acked, markers := markers })
def commanded (st : PortState) (off : Nat) (w : W64) : State :=
  let s := ported 0 st
  { s with fabric := { s.fabric with fcb := 0x8000 },
           mem := { holding (0x8000 + off) [w] with full := [((0x8000 + off) / 8, true)] } }
def Commands (P : State → W64 → Prop) : Prop :=
  ∃ s : State, s.fabric.fcb ≠ 0 ∧ 0 ≤ 5 ∧ s.mem.isFull (s.fabric.fcb / 8) = true ∧ P s (s.mem.word s.fabric.fcb)
/-- A PTCMD of one entry, that is well formed when it is a valid direction word. -/
def tabled (e : W64) : State :=
  let s := commanded .down 0x808 0
  { s with mem := s.mem.writeN (0x8000 + 0x1000) (wordBytes [e]) }

theorem witness_PortsAndFabricRegisters :
    Commands (fun s w => pcmdEvent 0 w = .drain 0 ∧ (s.port 0).state = .active) ∧
    Commands (fun s w => pcmdEvent 0 w = .drain 0 ∧ (s.port 0).state = .relock) ∧
    Commands (fun s w => pcmdEvent 0 w = .drain 0 ∧ (s.port 0).state = .down) ∧
    Commands (fun s w => pcmdEvent 0 w = .relock 0 ∧ (s.port 0).state = .dark) ∧
    Commands (fun s w => pcmdEvent 0 w = .relock 0 ∧ (s.port 0).state = .down) ∧
    Commands (fun s w => pcmdEvent 0 w = .relock 0 ∧ (s.port 0).state = .active) ∧
    Commands (fun _ w => pcmdEvent 0 w = .pcmdReserved 0 ∧ pcmdEvent 0 w ≠ .drain 0) ∧ .counterSnapshot ∉ s0.sched.agenda ∧
    s0.freeSpares ≠ [] ∧ 20 ≤ s0.holding 0 ∧
    s0.fabric.fcb = 0 ∧
    (∀ st ∈ [PortState.active, .draining, .dark, .relock, .down], ∃ s : State, (s.port 0).state = st) ∧
    (∃ s : State, (s.port 0).state = .draining ∧ (s.port 0).acked = true ∧ (s.pairsOf 0).length ≤ (s.port 0).markers + 1) ∧
    (∃ s : State, (s.port 0).state = .draining ∧ (s.pairsOf 0).length ≤ (s.port 0).markers) ∧
    (∃ s : State, (s.port 0).state = .draining ∧ ¬((s.port 0).acked = true ∧ (s.pairsOf 0).length ≤ (s.port 0).markers + 1) ∧
      ¬(s.pairsOf 0).length ≤ (s.port 0).markers) ∧
    (∃ s : State, (s.port 0).state = .dark ∧ (s.port 0).since + s.fabric.darklim.toNat ≤ s.ticks) ∧
    (∃ s : State, (s.port 0).state = .dark ∧ s.ticks < (s.port 0).since + s.fabric.darklim.toNat) ∧
    (∃ s : State, (s.port 0).state = .relock ∧ s.pairsOf 0 ≠ []) ∧ (∃ s : State, (s.port 5).state = .relock ∧ s.pairsOf 5 = []) ∧
    (∃ s : State, (1, 0) ∈ s.ni.holds) ∧ ((1, 0) ∉ s0.ni.holds) ∧
    (∃ (s : State) (o : OutReq), s.ni.out = [o] ∧ s.linkOf 0 0 ∉ s.linksOf o) ∧
    (∃ (s : State) (o : OutReq), s.ni.out = [o] ∧ s.linkOf 0 0 ∈ s.linksOf o ∧ o.sent = true) ∧
    (∃ s : State, s.fabric.fcb ≠ 0 ∧ s.fabric.fcb % 8 = 0 ∧ s.mem.isFull ((s.fabric.fcb + 0x808) / 8) = true ∧
      s.mem.word (s.fabric.fcb + 0x808) = 0 ∧ imageOk 0 (s.mem.word (s.fabric.fcb + 0x1000)) = true) ∧
    (∃ s : State, s.fabric.fcb ≠ 0 ∧ s.fabric.fcb % 8 = 0 ∧ s.mem.isFull ((s.fabric.fcb + 0x808) / 8) = true ∧
      s.mem.word (s.fabric.fcb + 0x808) = 0 ∧ imageOk 0 (s.mem.word (s.fabric.fcb + 0x1000)) = false) ∧
    (∃ s : State, (s.link ((at_ 3 16 : W64).toNat / 2 ^ 16 % 2 ^ 7)).failed = true) ∧
    ((s0.link 3).failed = false ∧ ∀ i, i < 8 → (0xFF : W64).getLsbD i = true → ((s0.link 3).lane i).state ≠ .failed) ∧
    (∃ s : State, (s.link 0).failed = false ∧ (2 : W64).toNat % 2 ^ 8 = 2 ^ 1 ∧ ((s.link 0).lane 1).state = .failed) :=
  ⟨⟨commanded .active 0 1, by decide +kernel⟩, ⟨commanded .relock 0 1, by decide +kernel⟩, ⟨commanded .down 0 1, by decide +kernel⟩,
   ⟨commanded .dark 0 2, by decide +kernel⟩, ⟨commanded .down 0 2, by decide +kernel⟩, ⟨commanded .active 0 2, by decide +kernel⟩,
   ⟨commanded .active 0 3, by decide +kernel⟩, by decide, by decide +kernel, by decide +kernel, rfl, fun st _ => ⟨ported 0 st, by cases st <;> decide +kernel⟩,
   ⟨ported 0 .draining true 19, by decide +kernel⟩, ⟨ported 0 .draining false 20, by decide +kernel⟩, ⟨ported 0 .draining, by decide +kernel⟩,
   ⟨{ ported 0 .dark with ticks := 2 ^ 32 }, by decide +kernel⟩,
   ⟨{ ported 0 .dark with fabric := { (ported 0 .dark).fabric with darklim := 1 } }, by decide +kernel⟩, ⟨ported 0 .relock, by decide +kernel⟩,
   ⟨(List.range 128).foldl (fun s i => s.modLink i (fun k => { k with port := 0 })) (ported 5 .relock), by decide +kernel⟩,
   ⟨{ s0 with ni := { s0.ni with holds := [(1, 0)] } }, by decide +kernel⟩, by decide +kernel,
   ⟨issued none true, _, rfl, by decide +kernel⟩,
   ⟨issuing { outReq none true with route := [((0, 0, 0), 0)] }, _, rfl, by decide +kernel⟩,
   ⟨tabled 1, by decide +kernel⟩, ⟨tabled (at_ 1 13), by decide +kernel⟩,
   ⟨linked 3 (fun k => { k with failed := true }), by decide +kernel⟩, by decide +kernel,
   ⟨linked 0 (fun k => k.setLane 1 (fun _ => lane .failed)), by decide +kernel⟩⟩

/-! ### Witnesses: the host -/

/-- The image at host address 0 is 64 bytes long; nothing else of it is set. -/
def imaged (s : State) : State := { s with host := { s.host with mem := [(0, 64)] } }
def booting (st : BitVec 3) (s : State := s0) : State := { s with host := { s.host with boot := st } }
/-- An image whose key, signature and version the fuses accept. -/
def Accepted (i : Image) (svn : Nat) : Prop :=
  sha384 i.key = Config.keyHash ∧ svn ≤ i.svn ∧ ecdsaVerify i.key i.sig (sha384 (i.head ++ i.body)) = true

/-- Whether the checks of an image's layout fail. -/
def badHead (i : Image) : Bool :=
  decide (i.len % 64 ≠ 0) || decide (i.len < 64) || decide (2 ^ 26 < i.len) || decide (i.gap ≠ 0) || i.zero.any (· ≠ 0)
theorem bad_head {i : Image} {r : ImageRead} {svn : Nat} (h : badHead i = true) : imageFault i r svn = some 4 := if_pos h
theorem good_head {i : Image} {r : ImageRead} {svn : Nat} (h : badHead i = false) : imageFault i r svn =
    if r = .readError then some 5 else if sha384 i.key ≠ Config.keyHash then some 1 else if i.svn < svn then some 3
    else if !ecdsaVerify i.key i.sig (sha384 (i.head ++ i.body)) then some 2 else none :=
  if_neg (fun (x : badHead i = true) => Bool.noConfusion (h.symm.trans x))

theorem witness_HostCommandsRun_boot :
    (s0.host.power = true ∧ s0.host.running = true) ∧
    (∃ s : State, s.host.power = false) ∧
    (∃ s : State, Statements.cool s ∧ s.host.boot ≠ 1 ∧ s.host.boot ≠ 4) ∧
    (∃ s : State, Statements.cool s ∧ s.host.boot = 1 ∧ imageFault (readImage s.host.mem 0) .ok Config.fwSvn = some 4) ∧
    (∃ s : State, s.host.boot = 4 ∧ imageFault (readImage s.host.mem 0) .readError Config.fwSvn = some 5) ∧
    (∃ i : Image, ¬(i.len % 64 ≠ 0 ∨ i.len < 64 ∨ 2 ^ 26 < i.len ∨ i.gap ≠ 0 ∨ ∃ b ∈ i.zero, b ≠ 0)) ∧
    (∀ svn, Accepted (readImage (imaged s0).host.mem 0) svn → imageFault (readImage (imaged s0).host.mem 0) .ok svn = none) := by
  refine ⟨by decide +kernel, ⟨{ s0 with host := { s0.host with power := false } }, rfl⟩, ⟨s0, ⟨rfl, rfl, rfl⟩, by decide⟩,
    ⟨booting 1, ⟨rfl, rfl, rfl⟩, rfl, bad_head (by decide +kernel)⟩, ⟨booting 4 (imaged s0), rfl, (good_head (by decide +kernel)).trans (if_pos rfl)⟩,
    ⟨readImage (imaged s0).host.mem 0, by decide +kernel⟩, ?_⟩
  rintro svn ⟨hk, hs, hv⟩
  rw [good_head (by decide +kernel), if_neg (by decide), if_neg (not_not_intro hk), if_neg (Nat.not_lt.mpr hs), hv]
  rfl

/-- A staged record for VF 1 that clashes with nothing, and one that does not fit its layout. -/
def record : List W64 := [1 ||| at_ 1 1 ||| at_ 16 16 ||| at_ 15 32, 1 ||| at_ 1 16, 0, 0, 1, 0, 0, 0]
def staged (r : List W64) (s : State := bound) : State :=
  { s with host := { s.host with stage := (List.range 8).map (fun i => (i, r.getD i 0)) } }
/-- Context 1 of the partition lives on row 0, which is held; queue 0 is on. -/
def inUse : State := at_work launchWs { c1 with rows := [0] }

/-- Tick 32, with everything else of it done: a start of the queue processor. -/
def atStart (s : State) : State := { s with ticks := 32, sched := { s.sched with agenda := [], turn := [] } }
def waitsFor (e : Instr) (s : State) : State := { s with host := { s.host with partWait := some e, partstat := 1 } }

theorem witness_HostCommandsRun_waits :
    (∃ s : State, s.host.partstat = 1 ∧ s.host.partWait ≠ some (.apply 1)) ∧
    (∃ s : State, s.host.partWait = some (.apply 1) ∧ s.startDue = false) ∧
    (∃ s : State, Statements.cool s ∧ s.host.partstat ≠ 1 ∧ s.startDue = false ∧ s.host.partWait ≠ some (.apply 1)) ∧
    (∀ e, ∃ s, Statements.starts s e ∧ s.host.partWait = some e) ∧ (∀ e, ∃ s, Statements.starts s e ∧ s.host.partstat ≠ 1) :=
  ⟨⟨waitsFor (.clear 1) s0, rfl, by decide⟩, ⟨waitsFor (.apply 1) s0, rfl, by decide +kernel⟩,
   ⟨s0, ⟨rfl, rfl, rfl⟩, by decide, by decide +kernel, by decide⟩,
   fun e => ⟨waitsFor e (atStart s0), ⟨⟨rfl, rfl, rfl⟩, rfl, .inl rfl⟩, rfl⟩,
   fun e => ⟨atStart s0, ⟨⟨rfl, rfl, rfl⟩, rfl, .inr (by decide)⟩, by decide⟩⟩

/-- A command finds its start, and the state in which its effect begins. -/
def Starts (e : Instr) (cmd : W64) (P : State → Prop) : Prop := ∃ s, Statements.starts s e ∧ P (Statements.started s e cmd)
theorem starts_now {e : Instr} {cmd : W64} {P : State → Prop} (s : State)
    (h : Statements.starts (atStart s) e) (p : P (Statements.started (atStart s) e cmd)) : Starts e cmd P := ⟨_, h, p⟩
theorem starts_bound (s : State) (e : Instr) (h : s.host.power = true ∧ s.host.running = true ∧ s.host.trip = false ∧
    s.qp.lastTick = 0 ∧ s.qp.ucodeAt ≤ 32 ∧ s.host.partstat ≠ 1) : Statements.starts (atStart s) e := by
  refine ⟨⟨h.1, h.2.1, h.2.2.1⟩, ?_, .inr h.2.2.2.2.2⟩
  simp [State.startDue, atStart, h.2.2.2.1, h.2.2.2.2.1]

theorem witness_HostCommandsRun_partitions :
    partOk s0.stageWords = false ∧
    Starts (.apply 1) (at_ 1 0 ||| at_ 1 3) (fun s => partOk s.stageWords = true ∧ ∃ e ∈ s.host.parts, e.1 ≠ 1 ∧ partsClash e.2 s.stageWords = true) ∧
    Starts (.apply 1) (at_ 1 0 ||| at_ 1 3) (fun s => partOk s.stageWords = true ∧
      ¬(∃ e ∈ s.host.parts, e.1 ≠ 1 ∧ partsClash e.2 s.stageWords = true) ∧ s.partBusy 1 (some s.stageWords) = false) ∧
    Starts (.apply 0) (at_ 1 0) (fun s => partOk s.stageWords = true ∧
      ¬(∃ e ∈ s.host.parts, e.1 ≠ 0 ∧ partsClash e.2 s.stageWords = true) ∧ s.partBusy 0 (some s.stageWords) = true) ∧
    Starts (.clear 0) (at_ 2 0) (fun s => s.partBusy 0 none = true) ∧
    Starts (.clear 0) (at_ 2 0) (fun s => s.partBusy 0 none = false ∧ (s.host.parts.find? 0).isSome = true) :=
  ⟨by decide +kernel, starts_now (staged part) (starts_bound _ _ (by decide +kernel)) (by decide +kernel),
   starts_now (staged record) (starts_bound _ _ (by decide +kernel)) (by decide +kernel),
   starts_now (staged record inUse) (starts_bound _ _ (by decide +kernel)) (by decide +kernel),
   starts_now inUse (starts_bound _ _ (by decide +kernel)) (by decide +kernel),
   starts_now bound (starts_bound _ _ (by decide +kernel)) (by decide +kernel)⟩

theorem witness_HostCommandsRun_rows :
    Starts (.mapout 0) (at_ 3 0) (fun s => (s.row 0).mappedOut = false ∧ s.rowFree 0 = true) ∧
    Starts (.mapout 0) (at_ 3 0) (fun s => (s.row 0).mappedOut = false ∧ s.rowFree 0 = false) ∧
    Starts (.mapout 0) (at_ 3 0) (fun s => (s.row 0).mappedOut = true) ∧ (0 < 1152) ∧
    (Statements.cool s0 ∧ s0.host.partstat ≠ 1 ∧ s0.host.partWait ≠ some (.ucode .ok)) ∧
    imageFault (readImage s0.host.mem s0.host.partarg.toNat) .ok Config.ucSvn = some 4 :=
  ⟨starts_now s0 (starts_bound _ _ (by decide +kernel)) (by decide +kernel),
   starts_now inUse (starts_bound _ _ (by decide +kernel)) (by decide +kernel),
   starts_now (s0.modRow 0 (fun w => { w with mappedOut := true })) (starts_bound _ _ (by decide +kernel)) (by decide +kernel),
   by decide, ⟨⟨rfl, rfl, rfl⟩, by decide, by decide⟩, bad_head (by decide +kernel)⟩

/-- VF 0 has staged an area of 17 pages. -/
def roomy : State := (bound).modVf 0 (fun v => { v with pages := 17 })

theorem witness_HostCommandsRun_contexts :
    Statements.cool s0 ∧ Statements.cool bound ∧ s0.boundPart 0 = none ∧ (∃ s : State, (s.vf 0).ctxstat = 1) ∧
    (∃ (s : State) (r : List W64), s.boundPart 0 = some r ∧ (s.vf 0).ctxstat ≠ 1 ∧ partHasAsid r 1 = true ∧ s.ctx? 1 = none ∧
      17 ≤ ((s.vf 0).staged 0 1 false).pages ∧
      let c := (s.vf 0).staged 0 1 false
      ∀ x ∈ ctxRanges c.segs c.save c.cnt c.tbl c.pages, partHasDram r x.1 x.2 = true) ∧
    (∃ (s : State) (r : List W64), s.boundPart 0 = some r ∧ (s.vf 0).ctxstat ≠ 1 ∧ ((s.vf 0).staged 0 1 false).pages < 17) ∧
    (∃ (s : State) (r : List W64), s.boundPart 0 = some r ∧ (s.vf 0).ctxstat ≠ 1 ∧ partHasAsid r 16 = false) ∧
    (∃ (s : State) (r : List W64) (c : Ctx), s.boundPart 0 = some r ∧ (s.vf 0).ctxstat ≠ 1 ∧ partHasAsid r 1 = true ∧
      s.ctx? 1 = some c ∧ c.phase ≠ .destroying) :=
  ⟨⟨rfl, rfl, rfl⟩, ⟨rfl, rfl, rfl⟩, by decide +kernel, ⟨(bound).modVf 0 (fun v => { v with ctxstat := 1 }), by decide +kernel⟩, ⟨roomy, part, by decide +kernel⟩,
   ⟨bound, part, by decide +kernel⟩, ⟨bound, part, by decide +kernel⟩, ⟨inUse, part, { c1 with rows := [0] }, by decide +kernel⟩⟩

theorem witness_HostCommandsRun_reports :
    (s0.host.power = true ∧ s0.host.running = true ∧ s0.boundPart (1 - 1) = none) ∧ (∃ s : State, s.boundPart (1 - 1) ≠ none) ∧
    (∃ s : State, (s.fn 0).att.getD 0x38 0 ≠ 0) ∧ (s0.fn 0).att.getD 0x38 0 = 0 ∧ (∃ s : State, s.host.power = true ∧ s.host.trip = true) :=
  ⟨by decide +kernel, ⟨bound, by decide +kernel⟩, ⟨s0.modFn 0 (fun v => v.writeAtt 0x38 1), by decide +kernel⟩, by decide +kernel,
   ⟨{ s0 with host := { s0.host with trip := true } }, rfl, rfl⟩⟩

theorem witness_HostAccessesAndRegisters :
    (∃ (s : State) (r : List W64), s.host.power = true ∧ s.host.running = true ∧ s.boundPart 0 = some r ∧ (s.vf 0).used = false) ∧
    (∃ (s : State) (r : List W64), s.host.power = true ∧ s.host.running = true ∧ s.boundPart 0 = some r ∧ (s.vf 0).used = true ∧
      ∃ q, q < 64 ∧ partHasQueue r q = true ∧ (s.queue q).en = true) ∧
    ((bound).queueVf 0 = some 0 ∧ (bound).queueVf 5 ≠ some 1) ∧ ((bound).vf 0).bound = some 0 ∧
    (∃ s : State, (s.vf 0).used = true ∧ (∀ q, q < 64 → (s.queue q).en = false) ∧ s.partCtxs 0 = [] ∧ s.boundPart 0 ≠ none) ∧
    ((bound).vf 0).ctxstat ≠ 1 ∧ (∀ p, p < 6 → (s0.port p).state ≠ .dark) ∧ s0.ticks % 65536 = 0 ∧ (∃ s : State, s.ticks % 65536 ≠ 0) ∧
    ((5 : W64).toNat + 8 ≤ shareBytes part) ∧
    (shareBytes part < (0x40000000 : W64).toNat + 8 ∧ (0x40000000 : W64).toNat < 2 ^ 39) ∧
    (shareBytes part < (0xC000000000 : W64).toNat + 8 ∧ 2 ^ 39 ≤ (0xC000000000 : W64).toNat ∧
      shareBytes part < ((0xC000000000 : W64).toNat - 2 ^ 39 + 8) * 64) ∧
    (shareBytes part < (0x8000FFFFF8 : W64).toNat + 8 ∧ 2 ^ 39 ≤ (0x8000FFFFF8 : W64).toNat ∧
      ((0x8000FFFFF8 : W64).toNat - 2 ^ 39 + 8) * 64 ≤ shareBytes part) ∧
    ((94 : BitVec 8).toNat < 95 ∧ 95 ≤ (95 : BitVec 8).toNat ∧ (104 : BitVec 8).toNat < 105 ∧ 105 ≤ (105 : BitVec 8).toNat) ∧
    (∃ s : State, s.host.power = true ∧ s.host.running = false) :=
  ⟨⟨bound, part, by decide +kernel⟩, ⟨(inUse).modVf 0 (fun v => { v with used := true }), part, by decide +kernel, by decide +kernel,
    by decide +kernel, by decide +kernel, 0, by decide +kernel⟩, by decide +kernel, by decide +kernel,
   ⟨(bound).modVf 0 (fun v => { v with used := true }), by decide +kernel⟩, by decide +kernel, by decide +kernel, by decide,
   ⟨{ s0 with ticks := 1 }, by decide⟩, by decide +kernel, by decide +kernel, by decide +kernel,
   by decide +kernel, by decide, ⟨{ s0 with host := { s0.host with running := false } }, by decide +kernel⟩⟩

/-! ### Witnesses: the whole machine -/

/-- Core 0 may issue, its code store holds a word, and the thread forwards nothing. -/
def fetching (w : W32) (th : Thread := th0) (c : Ctx := c0) : State :=
  let s := on { s0 with mem := holding (codeKey 0 0) [w.setWidth 64] } th c
  { s with sched := { s.sched with turn := [0], cur := none } }
def chooses (s : State) : Bool := ({ s with sched := { s.sched with turn := [] } } : State).choose 0 |>.1.isSome

theorem witness_AStepRunsTheDecodedInstruction :
    (∃ s : State, s.host.power = true ∧ s.host.running = false) ∧ (∃ (s : State) (e : Instr), s.sched.agenda = [e]) ∧
    (∃ s : State, s.sched.agenda = [] ∧ s.sched.turn = [] ∧ s.partDue = none ∧ s.rows = [] ∧ s.copies = [] ∧ s.rxe.waiting = [] ∧
      s.mailWaiters = [] ∧ ∀ e ∈ s.threads, s.countWaits e.2.id = false) ∧
    (∃ (s : State) (e : Instr), s.sched.agenda = [] ∧ s.sched.turn = [] ∧ s.partDue = some e) ∧
    (∃ s : State, s.sched.agenda = [] ∧ s.sched.turn = [0] ∧ chooses s = false) ∧
    (∃ (s : State) (i : Instr), s.sched.agenda = [] ∧ s.sched.turn = [0] ∧ chooses s = true ∧
      (match decode (s.codeWord 0 0) with | .ok j => decide (j = i) | .error _ => false) = true) ∧
    (∃ s : State, s.sched.agenda = [] ∧ s.sched.turn = [0] ∧ chooses s = true ∧
      (match decode (s.codeWord 0 0) with | .ok _ => false | .error _ => true) = true) ∧
    (∃ s : State, s.sched.agenda = [] ∧ s.sched.turn = [0] ∧ chooses s = true ∧ s.mem.badCode.contains (codeKey 0 0) = true) ∧
    (c0.loaded 0 = true ∧ { c0 with code := [] }.loaded 0 = false) :=
  ⟨⟨{ s0 with host := { s0.host with running := false } }, by decide +kernel⟩,
   ⟨{ s0 with sched := { s0.sched with agenda := [.ebbStart] } }, .ebbStart, rfl⟩,
   ⟨{ s0 with sched := { s0.sched with agenda := [], turn := [] } }, by decide +kernel⟩,
   ⟨waitsFor (.clear 1) (atStart s0), .clear 1, rfl, rfl, by decide +kernel⟩,
   ⟨{ s0 with sched := { s0.sched with agenda := [], turn := [0] } }, by decide +kernel⟩,
   ⟨fetching 0x040A180B, .sext 0 5 6 .h, by decide +kernel⟩, ⟨fetching 0, by decide +kernel⟩,
   ⟨let s := fetching 0; { s with mem := { s.mem with badCode := [codeKey 0 0] } }, by decide +kernel⟩, by decide +kernel⟩

theorem witness_EveryInstructionAnswersANextState :
    encode .ebbStart = none ∧
    (∃ (s : State) (t : Tid) (th : Thread) (c : Ctx), s.sched.cur = some t ∧ s.thread? t = some th ∧ s.ctx? th.asid = some c) ∧
    encode (.sext 0 5 6 .h) ≠ none ∧ s0.sched.cur = none :=
  ⟨rfl, ⟨on s0 th0 c0, th0.id, th0, c0, rfl, by simp [on, State.thread?, Tab.find?], by simp [on, State.ctx?, Tab.find?]⟩,
   by decide +kernel, rfl⟩

theorem witness_EncodingThenDecodingGivesTheInstruction :
    (Instr.sext 0 5 6 .h).wf = true ∧ encode (.sext 0 5 6 .h) = some 0x040A180B := by decide +kernel

theorem witness_DecodedInstructionsEncodeToTheirWord : decode 0x040A180B = .ok (.sext 0 5 6 .h) := by rfl

theorem witness_EveryStepKeepsTheCanonicalForm : State.reset.wf = true ∧ ∃ s', step State.reset = .next s' :=
  ⟨by decide +kernel, _, rfl⟩

theorem witness_RegisterInstructionsChangeNothingElse :
    (Statements.writesOne (.sext 0 5 6 .h)).isSome = true ∧ th0.enables = 0 ∧ ∃ s', exec (.sext 0 5 6 .h) (on s0 th0 c0) = .next s' :=
  ⟨rfl, by decide +kernel, _, rfl⟩

end Sys2Proof.Tests
end

/-! SUPPORT. Words of memory: a word is read back after it is written, alone or in a run of words (R7, R34). -/

namespace Sys2Proof.Machine

/-! ### Bytes of a word (R7) -/

@[simp] theorem length_leBytes : ∀ n v : Nat, (leBytes n v).length = n
  | 0, _ => rfl
  | n + 1, v => by simp [leBytes, length_leBytes n]

theorem leNat_leBytes : ∀ n v : Nat, leNat (leBytes n v) = v % 256 ^ n
  | 0, v => by simp [leBytes, leNat, Nat.mod_one]
  | n + 1, v => by
    rw [leBytes, leNat, leNat_leBytes n, Nat.pow_succ', Nat.mod_mul, BitVec.toNat_ofNat]

theorem wordBytes_cons (w : W64) (ws : List W64) : wordBytes (w :: ws) = leBytes 8 w.toNat ++ wordBytes ws := rfl

theorem ofNat_leNat_leBytes (w : W64) : BitVec.ofNat 64 (leNat (leBytes 8 w.toNat)) = w := by
  have hw : w.toNat < 256 ^ 8 := by have := w.isLt; omega
  rw [leNat_leBytes, Nat.mod_eq_of_lt hw, BitVec.ofNat_toNat, BitVec.setWidth_eq]

/-! ### Words read after a write -/

theorem Memory.writeN_append : ∀ (l r : List Byte) (m : Memory) (k : Nat),
    m.writeN k (l ++ r) = (m.writeN k l).writeN (k + l.length) r
  | [], _, _, _ => rfl
  | b :: l, r, m, k => by
    rw [List.cons_append, Memory.writeN, Memory.writeN, Memory.writeN_append l, List.length_cons, Nat.add_assoc,
      Nat.add_comm 1]

theorem Memory.readN_writeN_self (m : Memory) (k : Nat) (l : List Byte) : (m.writeN k l).readN k l.length = l := by
  refine List.ext_getElem (by simp [Memory.readN]) fun i _ h => ?_
  simpa [Memory.readN] using Memory.read_writeN_inside l m k i h

theorem Memory.word_writeN_of_disjoint (m : Memory) {k a : Nat} {l : List Byte} (h : a + 8 ≤ k ∨ k + l.length ≤ a) :
    (m.writeN k l).word a = m.word a := by
  have bytes : (m.writeN k l).readN a 8 = m.readN a 8 := List.map_congr_left fun i hi =>
    Memory.read_writeN_outside l m k (a + i) (by have := List.mem_range.1 hi; omega)
  rw [Memory.word, bytes, Memory.word]

@[simp] theorem Memory.word_setWord_same (m : Memory) (k : Nat) (w : W64) : (m.setWord k w).word k = w := by
  have bytes := Memory.readN_writeN_self m k (leBytes 8 w.toNat)
  rw [length_leBytes] at bytes
  rw [Memory.word, Memory.setWord, bytes, ofNat_leNat_leBytes]

theorem Memory.word_setWord_of_disjoint (m : Memory) {k a : Nat} (w : W64) (h : a + 8 ≤ k ∨ k + 8 ≤ a) :
    (m.setWord k w).word a = m.word a :=
  Memory.word_writeN_of_disjoint m (by simpa using h)

/-- Each word of a run of words is read back at its place. -/
theorem Memory.word_writeN_wordBytes : ∀ (ws : List W64) (m : Memory) (k i : Nat) (h : i < ws.length),
    (m.writeN k (wordBytes ws)).word (k + 8 * i) = ws[i]
  | w :: ws, m, k, 0, _ => by
    rw [wordBytes_cons, Memory.writeN_append, Memory.word_writeN_of_disjoint _ (by simp)]
    exact Memory.word_setWord_same m k w
  | w :: ws, m, k, i + 1, h => by
    rw [wordBytes_cons, Memory.writeN_append, length_leBytes, show k + 8 * (i + 1) = k + 8 + 8 * i by omega]
    exact Memory.word_writeN_wordBytes ws _ (k + 8) i (by simpa using h)

end Sys2Proof.Machine

/-! SUPPORT. A change of a cell's FE bit (R33, R34, R181, R443): what it leaves as it was, and what is read after it. -/

namespace Sys2Proof.Machine

variable (s : State)

@[simp] theorem State.feChanged_mem (cell : Nat) : (s.feChanged cell).mem = s.mem := by
  unfold State.feChanged; split <;> simp
@[simp] theorem State.feChanged_ctxs (cell : Nat) : (s.feChanged cell).ctxs = s.ctxs := by
  unfold State.feChanged; split <;> simp

/-- A command that is found is an event of later, or nothing. -/
theorem State.commandFilled_frame (cell : Nat) :
    (s.commandFilled cell).mem = s.mem ∧ (s.commandFilled cell).ctxs = s.ctxs := by
  simp only [State.commandFilled]
  split
  · exact ⟨rfl, rfl⟩
  · split
    · exact ⟨State.later_mem .., State.later_ctxs ..⟩
    · split
      · exact ⟨State.later_mem .., State.later_ctxs ..⟩
      · exact ⟨rfl, rfl⟩

@[simp] theorem State.commandFilled_mem (cell : Nat) : (s.commandFilled cell).mem = s.mem := (s.commandFilled_frame cell).1
@[simp] theorem State.commandFilled_ctxs (cell : Nat) : (s.commandFilled cell).ctxs = s.ctxs := (s.commandFilled_frame cell).2

@[simp] theorem State.setFull_ctxs (cell : Nat) (b : Bool) : (s.setFull cell b).ctxs = s.ctxs := by
  unfold State.setFull
  split
  · rfl
  · split <;> simp

/-- The memory of a state whose FE bit is written: the bit alone, and nothing when it stands so already. -/
theorem State.setFull_mem (cell : Nat) (b : Bool) : (s.setFull cell b).mem =
    if s.mem.isFull cell = b then s.mem else { s.mem with full := s.mem.full.setD cell b false } := by
  unfold State.setFull
  split
  · rfl
  · split <;> simp

@[simp] theorem State.setFull_word (cell : Nat) (b : Bool) (k : Nat) : (s.setFull cell b).mem.word k = s.mem.word k := by
  rw [State.setFull_mem]; split <;> rfl

@[simp] theorem State.setFull_isFull_same (cell : Nat) (b : Bool) : (s.setFull cell b).mem.isFull cell = b := by
  rw [State.setFull_mem]
  split
  · next h => exact h
  · exact (Tab.getD_setD s.mem.full cell cell b false).trans (if_pos rfl)

@[simp] theorem State.setMem_mem (m : Memory) : (s.setMem m).mem = m := rfl
@[simp] theorem State.setMem_ctxs (m : Memory) : (s.setMem m).ctxs = s.ctxs := rfl

/-- A struck cell is poisoned (R34). -/
@[simp] theorem State.strike_poisoned_same (cell : Nat) : (s.strike cell).mem.poisoned cell = true :=
  (Tab.getD_setD _ cell cell true false).trans (if_pos rfl)

@[simp] theorem State.row_modRow_same (n : Nat) (f : RowRec → RowRec) : (s.modRow n f).row n = f (s.row n) :=
  (Tab.getD_setD s.rows n n _ _).trans (if_pos rfl)

end Sys2Proof.Machine

/-! SUPPORT. Storage errors and counter pages (R34, R306, R307, R309, R362, R450, R473). -/

namespace Sys2Proof.Machine

theorem exec_uncorrectableError (site : ErrSite) (s : State) :
    exec (.uncorrectableError site) s = execUncorrectableError site s := rfl
theorem exec_scrub (site : ErrSite) (b : Bool) (s : State) : exec (.scrub site b) s = execScrub site b s := rfl

/-! ### Errors at their site -/

variable (s : State)

/-- An error, corrected or not, at a site that the package does not have changes nothing. -/
theorem errors_of_not_siteExists {site : ErrSite} (h : s.siteExists site = false) :
    exec (.uncorrectableError site) s = .next s ∧ ∀ b, exec (.scrub site b) s = .next s := by
  simp [exec_uncorrectableError, exec_scrub, execUncorrectableError, execScrub, h]

theorem exec_uncorrectableError_of_siteExists {site : ErrSite} (h : s.siteExists site = true) :
    exec (.uncorrectableError site) s =
      .next ((s.corrupt site).countOwner (s.errorCount site).2 (s.errorCount site).1).retryDet := by
  rw [exec_uncorrectableError, execUncorrectableError, if_pos h]

theorem exec_scrub_uncorrected {site : ErrSite} (h : s.siteExists site = true) :
    exec (.scrub site false) s = .next ((s.corrupt site).countPackage (s.errorCount site).1 1).retryDet := by
  simp [exec_scrub, execScrub, h]

/-- R362: corrected errors have a counter for DRAM and for local stores, the word before that of the uncorrectable ones. -/
theorem exec_scrub_corrected {site : ErrSite} (h : s.siteExists site = true) :
    exec (.scrub site true) s = .next (if (s.errorCount site).1 = 3 ∨ (s.errorCount site).1 = 5
      then s.countPackage ((s.errorCount site).1 - 1) 1 else s) := by
  simp [exec_scrub, execScrub, h]

/-- Where an entry is listed once, it stands in the list afterwards. -/
theorem mem_listedOnce (l : List Nat) (a : Nat) : a ∈ if l.contains a then l else l ++ [a] := by
  split
  · next h => exact List.contains_iff_mem.1 h
  · exact List.mem_append_right l (List.mem_singleton.2 rfl)

theorem corrupt_codeWord_badCode (cluster w : Nat) :
    codeKey cluster (4 * w) ∈ (s.corrupt (.codeWord cluster w)).mem.badCode := mem_listedOnce _ _

theorem corrupt_eagerGroup_badGroups (g : Nat) : g ∈ (s.corrupt (.eagerGroup g)).rxe.badGroups := mem_listedOnce _ _

theorem RowRec.strike_badAcc (r : RowRec) (key : Nat) : key ∈ (r.strike key).badAcc := mem_listedOnce _ _

theorem RowRec.strike_acc (r : RowRec) (key : Nat) :
    (r.strike key).acc.getD key 0 = struckValue (r.types.getD (key / 4096) 0) :=
  (Tab.getD_setD r.acc key key _ 0).trans (if_pos rfl)

/-! ### The power measured -/

theorem State.draw_lt {n : Nat} (h : 0 < n) : (s.draw n).1 < n := by
  have h0 : n ≠ 0 := by omega
  simpa [State.draw, h0] using Nat.mod_lt _ h

@[simp] theorem State.measure_ctxs : s.measure.2.ctxs = s.ctxs := rfl
@[simp] theorem State.measure_ticks : s.measure.2.ticks = s.ticks := rfl

/-- R4, R471, R473: the power and the energy come from one draw, in µW. -/
theorem State.measure_spec : s.measure.1 ≤ 2400000 ∧ ∃ p, p ≤ 2400000000 ∧ s.measure.1 = p / 1000 ∧
    s.measure.2.host.energy = s.host.energy + BitVec.ofNat 64 ((s.host.energyPart + 4096 * p) / (7 * 10 ^ 12)) ∧
    s.measure.2.host.energyPart = (s.host.energyPart + 4096 * p) % (7 * 10 ^ 12) := by
  have hp : (s.draw 2400000001).1 < 2400000001 := s.draw_lt (by omega)
  have hw : s.measure.1 = (s.draw 2400000001).1 / 1000 := rfl
  exact ⟨by omega, (s.draw 2400000001).1, by omega, hw, rfl, rfl⟩

theorem State.noteCutOff_frame (peer : Nat) :
    (s.noteCutOff peer).ctxs = s.ctxs ∧ (s.noteCutOff peer).ticks = s.ticks := by
  simp only [State.noteCutOff]
  split
  · exact ⟨rfl, rfl⟩
  · split
    · exact ⟨rfl, rfl⟩
    · split
      · exact ⟨rfl, rfl⟩
      · split <;> exact ⟨rfl, rfl⟩

/-- Looking for peers that are cut off changes neither the contexts nor the tick. -/
theorem State.foldl_noteCutOff : ∀ (peers : List Nat) (s : State),
    (peers.foldl State.noteCutOff s).ctxs = s.ctxs ∧ (peers.foldl State.noteCutOff s).ticks = s.ticks
  | [], _ => ⟨rfl, rfl⟩
  | p :: ps, s => by
    obtain ⟨hc, ht⟩ := State.foldl_noteCutOff ps (s.noteCutOff p)
    obtain ⟨hpc, hpt⟩ := s.noteCutOff_frame p
    exact ⟨hc.trans hpc, ht.trans hpt⟩

/-! ### Pages rewritten -/

@[simp] theorem State.writePage_ctxs (a seq : Nat) (ws : List W64) : (s.writePage a seq ws).ctxs = s.ctxs := by
  simp [State.writePage]

@[simp] theorem State.writePage_isFull (a seq : Nat) (ws : List W64) : (s.writePage a seq ws).mem.isFull (a / 8) = true := by
  simp [State.writePage]

@[simp] theorem State.writePage_word_zero (a seq : Nat) (ws : List W64) :
    (s.writePage a seq ws).mem.word a = BitVec.ofNat 64 seq := by
  simp [State.writePage]

theorem State.writePage_word_succ (a seq : Nat) (ws : List W64) {i : Nat} (h : i < ws.length) :
    (s.writePage a seq ws).mem.word (a + 8 * (i + 1)) = ws[i] := by
  simp only [State.writePage, State.setFull_word, State.setMem_mem]
  rw [Memory.word_setWord_of_disjoint _ _ (by omega), show a + 8 * (i + 1) = a + 8 + 8 * i by omega,
    Memory.word_writeN_wordBytes ws _ _ i h]

/-- The snapshot of a context that is no management context gives its record the next sequence number. -/
theorem State.snapshotCtx_ctx? (v : State) {c : Ctx} (pwr : Nat) (hm : c.mgmt = false) (hc : s.ctx? c.asid = some c) :
    (s.snapshotCtx v c pwr).ctx? c.asid = some { c with snapSeq := c.snapSeq + 1 } := by
  simp only [State.ctx?] at hc ⊢
  simp [State.snapshotCtx, hm, State.modCtx, Tab.find?_modify, hc]

/-- R362, R450: cell 0 of the page that a snapshot writes. -/
theorem State.snapshotCtx_cell_zero (v : State) {c : Ctx} (pwr : Nat) (hm : c.mgmt = false) :
    (s.snapshotCtx v c pwr).mem.word c.cnt = c.snapSeq + 1 ∧ (s.snapshotCtx v c pwr).mem.isFull (c.cnt / 8) = true := by
  have hseq : BitVec.ofNat 64 (c.snapSeq + 1).toNat = c.snapSeq + 1 := by rw [BitVec.ofNat_toNat, BitVec.setWidth_eq]
  simp only [State.snapshotCtx, hm, Bool.false_eq_true, if_false, State.writePage_word_zero, State.writePage_isFull, hseq,
    and_self]

/-- R362: words 1 to 15 of the page that a snapshot writes. -/
theorem State.snapshotCtx_word (v : State) {c : Ctx} (pwr : Nat) {i : Nat} (hm : c.mgmt = false) (h1 : 1 ≤ i) (h15 : i ≤ 15) :
    (s.snapshotCtx v c pwr).mem.word (c.cnt + 8 * i) = headerWord v.ticks c.counters i := by
  obtain ⟨j, rfl⟩ := Nat.exists_eq_add_of_le' h1
  simp only [State.snapshotCtx, hm, Bool.false_eq_true, if_false]
  rw [State.writePage_word_succ _ _ _ _ (by simp; omega)]
  simp

/-- The state whose values the snapshot of a state writes into the pages. -/
def State.measured (s : State) : Nat × State := (s.otherPeers.foldl State.noteCutOff s).measure

@[simp] theorem State.measured_ctxs : s.measured.2.ctxs = s.ctxs := (State.foldl_noteCutOff _ s).1
@[simp] theorem State.measured_ticks : s.measured.2.ticks = s.ticks := (State.foldl_noteCutOff _ s).2

/-- R362, R450: a snapshot goes through the contexts, each of which gets the values at the start of the tick. -/
theorem exec_counterSnapshot : exec .counterSnapshot s = .next (s.ctxs.foldl (fun (st : State) (e : Nat × Ctx) =>
    if e.2.phase == .ended || e.2.phase == .destroying then st
    else st.snapshotCtx s.measured.2 e.2 s.measured.1) s.measured.2) := by
  rw [← s.measured_ctxs]
  rfl

/-- A package without contexts has no page to rewrite. -/
theorem exec_counterSnapshot_of_no_ctxs (h : s.ctxs = []) : exec .counterSnapshot s = .next s.measured.2 := by
  rw [exec_counterSnapshot, h, List.foldl_nil]

/-- With one context, which is live, a snapshot is that of its page. -/
theorem exec_counterSnapshot_of_one_live {a : Nat} {c : Ctx} (h : s.ctxs = [(a, c)]) (hl : c.phase = .live) :
    exec .counterSnapshot s = .next (s.measured.2.snapshotCtx s.measured.2 c s.measured.1) := by
  simp [exec_counterSnapshot, h, hl]

/-! ### The statements -/

theorem storageErrorsStrike : Statements.StorageErrorsStrike := by
  intro s site
  refine ⟨errors_of_not_siteExists s, fun h => ⟨fun a ha => ?_, fun hn => ?_, ?_, fun hw => ?_, fun h3 h5 => ?_⟩,
    fun _ _ => rfl, fun _ => rfl, s.strike_poisoned_same, corrupt_codeWord_badCode s, corrupt_eagerGroup_badGroups s,
    fun row slot r n => ?_⟩
  · rw [exec_uncorrectableError_of_siteExists s h, ha]; rfl
  · rw [exec_uncorrectableError_of_siteExists s h, hn]; rfl
  · exact exec_scrub_uncorrected s h
  · rw [exec_scrub_corrected s h, if_pos hw]; rfl
  · rw [exec_scrub_corrected s h, if_neg (not_or.2 ⟨h3, h5⟩)]
  · simp only [State.corrupt, State.row_modRow_same]
    exact ⟨RowRec.strike_badAcc _ _, RowRec.strike_acc _ _⟩

theorem snapshotsRewriteThePages : Statements.SnapshotsRewriteThePages := by
  refine ⟨exec_counterSnapshot_of_no_ctxs, State.measure_spec, fun s a c hc ha hm hl => ?_⟩
  subst ha
  have hctx : s.measured.2.ctx? c.asid = some c := by simp [State.ctx?, hc, Tab.find?]
  have hword : ∀ i, 1 ≤ i → i ≤ 15 →
      (s.measured.2.snapshotCtx s.measured.2 c s.measured.1).mem.word (c.cnt + 8 * i) = headerWord s.ticks c.counters i :=
    fun i h1 h15 => by rw [State.snapshotCtx_word _ _ _ hm h1 h15, State.measured_ticks]
  obtain ⟨hseq, hfull⟩ := s.measured.2.snapshotCtx_cell_zero s.measured.2 s.measured.1 hm
  refine ⟨_, exec_counterSnapshot_of_one_live s hc hl, State.snapshotCtx_ctx? _ _ _ hm hctx, fun _ => ⟨hseq, hfull, ?_, ?_⟩⟩
  · exact hword 1 (by omega) (by omega)
  · intro i h2 h14
    rw [hword i (by omega) (by omega), headerWord, if_neg (by omega), if_neg (by omega)]

/-- Settles O43: errors strike their storage and are counted, by the cases of the site and of the counter's owner; a snapshot
rewrites the page of the one live context, whose words are read back through the writes of `State.writePage`. -/
theorem errorsAreCountedAndPagesRewritten : Obligations.ErrorsAreCountedAndPagesRewritten :=
  ⟨storageErrorsStrike, snapshotsRewriteThePages⟩

end Sys2Proof.Machine

/-! SUPPORT. Queue packets (R299, R326 to R331, R333, R334, R404): the queue that starts next, the parsed packet at the head, the
dispatch of a kernel, the threads of a launch, and the ends of FENCE and SIGNAL. -/

namespace Sys2Proof.Machine

theorem exec_queuePacketStart (s : State) : exec .queuePacketStart s = execQueuePacketStart s := rfl
theorem exec_launch (q : Nat) (s : State) : exec (.launch q) s = .next (s.launchNow q) := rfl
theorem exec_dispatch (n : Nat) (s : State) : exec (.dispatch n) s = .next (s.dispatchNow n) := rfl
theorem exec_threadCreation (n : Nat) (s : State) : exec (.threadCreation n) s = execThreadCreation n s := rfl
theorem exec_fencePacket (q : Nat) (s : State) : exec (.fencePacket q) s = execFencePacket q s := rfl
theorem exec_fencePacketPass (q : Nat) (s : State) : exec (.fencePacketPass q) s = execFencePacketPass q s := rfl
theorem exec_signal (q : Nat) (s : State) : exec (.signal q) s = execSignal q s := rfl
theorem exec_signalWrite (q : Nat) (s : State) : exec (.signalWrite q) s = execSignalWrite q s := rfl

/-! ### A queue written and read back -/

variable (s : State)

@[simp] theorem State.queue_putQueue_same (q : Nat) (r : QueueRec) : (s.putQueue q r).queue q = r :=
  (Tab.getD_setD s.queues q q r _).trans (if_pos rfl)

@[simp] theorem State.queue_modQueue_same (q : Nat) (f : QueueRec → QueueRec) : (s.modQueue q f).queue q = f (s.queue q) :=
  s.queue_putQueue_same q _

@[simp] theorem State.modQueue_ctx? (q : Nat) (f : QueueRec → QueueRec) (a : Nat) : (s.modQueue q f).ctx? a = s.ctx? a := rfl

/-- R326, R352: an error record counts as one more error of its queue. -/
@[simp] theorem State.queue_errorRecord_same (q : Nat) (e : ErrRec) : (s.errorRecord q e).queue q =
    { s.queue q with recSeq := (s.queue q).recSeq + 1, errs := (s.queue q).errs + 1 } :=
  s.queue_putQueue_same q _

/-! ### The queue that starts next (R327) -/

/-- What a running maximum starts from, and every value that it passes, is at most its end. -/
theorem le_foldl_max {α : Type} (f : α → Nat) : ∀ (l : List α) (n : Nat),
    n ≤ l.foldl (fun m e => Nat.max m (f e)) n ∧ ∀ e ∈ l, f e ≤ l.foldl (fun m e => Nat.max m (f e)) n
  | [], n => ⟨Nat.le_refl n, by simp⟩
  | d :: l, n => by
    obtain ⟨hstart, hrest⟩ := le_foldl_max f l (Nat.max n (f d))
    refine ⟨Nat.le_trans (Nat.le_max_left n (f d)) hstart, fun e he => ?_⟩
    rcases List.mem_cons.1 he with rfl | he
    · exact Nat.le_trans (Nat.le_max_right n (f e)) hstart
    · exact hrest e he

/-- R327: the chosen queue is one of those of highest PRIO among the queues that can start. -/
theorem State.chooseQueue_spec {q : Nat} (h : s.chooseQueue = some q) :
    ∃ e ∈ s.queues, e.1 = q ∧ s.startable e.2 = true ∧ ∀ d ∈ s.queues, s.startable d.2 = true → d.2.prio ≤ e.2.prio := by
  have top : ∀ e ∈ (s.queues.filter (fun e => s.startable e.2)).filter (fun e => e.2.prio ==
      (s.queues.filter (fun e => s.startable e.2)).foldl (fun n e => Nat.max n e.2.prio) 0),
      e ∈ s.queues ∧ s.startable e.2 = true ∧ ∀ d ∈ s.queues, s.startable d.2 = true → d.2.prio ≤ e.2.prio := by
    intro e he
    obtain ⟨hl, hp⟩ := List.mem_filter.1 he
    obtain ⟨hq, hs⟩ := List.mem_filter.1 hl
    refine ⟨hq, hs, fun d hd hds => ?_⟩
    rw [eq_of_beq hp]
    exact (le_foldl_max (fun e : Nat × QueueRec => e.2.prio) _ 0).2 d (List.mem_filter.2 ⟨hd, hds⟩)
  simp only [State.chooseQueue] at h
  split at h
  · next e he =>
    obtain ⟨hq, hs, hmax⟩ := top e (List.mem_of_find?_eq_some he)
    exact ⟨e, hq, Option.some.inj h, hs, hmax⟩
  · obtain ⟨e, he, rfl⟩ := Option.map_eq_some_iff.1 h
    obtain ⟨hq, hs, hmax⟩ := top e (List.mem_of_head? he)
    exact ⟨e, hq, rfl, hs, hmax⟩

theorem packetEvent_of_mem {q ty : Nat} {ev : Instr} {w : W64}
    (h : (ty, ev) ∈ [(1, Instr.launch q), (2, .fencePacket q), (3, .signal q), (4, .pin q), (5, .unpin q), (6, .viewdef q),
      (7, .codeload q), (8, .detlvl q), (9, .slotplan q)]) (ht : packetType w = ty) : packetEvent q w = some ev := by
  simp only [List.mem_cons, Prod.mk.injEq, List.not_mem_nil, or_false] at h
  rcases h with ⟨rfl, rfl⟩ | ⟨rfl, rfl⟩ | ⟨rfl, rfl⟩ | ⟨rfl, rfl⟩ | ⟨rfl, rfl⟩ | ⟨rfl, rfl⟩ | ⟨rfl, rfl⟩ | ⟨rfl, rfl⟩ | ⟨rfl, rfl⟩ <;>
    simp only [packetEvent, ht]

theorem packetEvent_of_unknown {w : W64} (q : Nat) (h : packetType w = 0 ∨ 9 < packetType w) : packetEvent q w = none := by
  unfold packetEvent
  split
  case h_10 => rfl
  all_goals omega

theorem packetsStart : Statements.PacketsStart := by
  refine fun s => ⟨fun hn => ?_, fun q hq => ⟨s.chooseQueue_spec hq, fun ty ev hm ht => ?_, fun hu => ?_⟩⟩
  · rw [exec_queuePacketStart, execQueuePacketStart, hn]
  · simp only [exec_queuePacketStart, execQueuePacketStart, hq, packetEvent_of_mem hm ht]
  · simp only [exec_queuePacketStart, execQueuePacketStart, hq, packetEvent_of_unknown q hu]
    rfl

theorem packetsEnd : Statements.PacketsEnd := by
  intro s q code
  simp [State.rejectPacket, State.completePacket]

/-! ### The packet at the head of a queue -/

section AtHead

variable {s} {q ty : Nat} {c : Ctx} {ws : List W64}

theorem words_of_atHead (h : Statements.atHead s q ty c ws) : (s.queue q).words = ws := by
  rw [QueueRec.words, h.1, Option.getD_some]

/-- The operation of the packet at the head runs with the words of the packet and the context. -/
theorem withPacket_of_atHead (h : Statements.atHead s q ty c ws) (f : Ctx → List W64 → State) : s.withPacket q ty f = f c ws := by
  obtain ⟨hp, hc, hl, ht⟩ := h
  simp [State.withPacket, hp, hc, hl, ht]

/-- The packet stays at the head of its queue when a change of the queue's record leaves the packet and the context. -/
theorem atHead_modQueue (h : Statements.atHead s q ty c ws) {f : QueueRec → QueueRec} (hp : (f (s.queue q)).packet = (s.queue q).packet)
    (hc : (f (s.queue q)).ctx = (s.queue q).ctx) : Statements.atHead (s.modQueue q f) q ty c ws := by
  simpa [Statements.atHead, hp, hc] using h

end AtHead

theorem launchesAreAccepted : Statements.LaunchesAreAccepted := by
  refine fun s q c ws h => ⟨fun e he => ?_, fun hn => ?_⟩
  · rw [exec_launch, State.launchNow, withPacket_of_atHead h]
    simp only [he]
  · rw [exec_launch, State.launchNow, withPacket_of_atHead h]
    simp only [hn]
    rfl

/-! ### Dispatch (R333, R334, R336, R404) -/

/-- R334: the dispatch tick is the present one; at DET2, the next multiple of 65,536. -/
theorem dispatchTick_spec (now : Nat) (level : BitVec 2) : now ≤ dispatchTick now level ∧ (level ≠ 2 → dispatchTick now level = now) ∧
    (level = 2 → dispatchTick now level % 65536 = 0 ∧ dispatchTick now level < now + 65536) := by
  unfold dispatchTick
  split
  · next h => exact ⟨by omega, fun hn => absurd h hn, fun _ => by omega⟩
  · next h => exact ⟨Nat.le_refl _, fun _ => rfl, fun hl => absurd hl h⟩

section Dispatch

variable {s} {n : Nat} {k : Kernel} {c : Ctx} (hk : s.kernels.find? n = some k) (hc : s.ctx? k.asid = some c)
include hk hc

theorem State.dispatchNow_of_not_due (h : k.phase ≠ .waiting ∨ c.phase ≠ .live ∨ s.planHeld n k = true) : s.dispatchNow n = s := by
  have hif : (k.phase ≠ .waiting || c.phase ≠ .live || s.planHeld n k) = true := by simpa [or_assoc] using h
  simp only [State.dispatchNow, hk, hc, hif, if_true]

variable (hw : k.phase = .waiting) (hl : c.phase = .live) (hp : s.planHeld n k = false)
include hw hl hp

/-- R38, R328: the rows that the context holds have another E than the launch asks for. -/
theorem State.dispatchNow_of_other_exch (h : c.rows ≠ [] ∧ c.exch ≠ k.exch) : s.dispatchNow n = s.rejectExch n k := by
  simp [State.dispatchNow, hk, hc, hw, hl, hp, h]

variable (h : (!c.rows.isEmpty && decide (c.exch ≠ k.exch)) = false)
include h

theorem State.dispatchNow_of_no_place (hn : s.placeNow c k = none) : s.dispatchNow n = s.preemptFor c k := by
  simp only [State.dispatchNow, hk, hc, hw, hl, hp, h, hn]
  rfl

variable {l : List (Nat × Occ)} (hs : s.placeNow c k = some l)
include hs

/-- R336: the restores that the launch would hold up come first. -/
theorem State.dispatchNow_of_restores (hr : s.restoresFirst (s.queue k.queue).prio (l.map (·.1 / 4)) ≠ []) :
    s.dispatchNow n = (s.restoresFirst (s.queue k.queue).prio (l.map (·.1 / 4))).foldl
      (fun st a => st.sched_ st.ticks rankEngine (.restore a)) s := by
  obtain ⟨a, r, har⟩ := List.exists_cons_of_ne_nil hr
  simp only [State.dispatchNow, hk, hc, hw, hl, hp, h, hs, Option.getD_some, har]
  rfl

/-- R333, R334: the launch takes its cores and has its threads created at its dispatch tick. -/
theorem State.dispatchNow_of_place (hr : s.restoresFirst (s.queue k.queue).prio (l.map (·.1 / 4)) = []) :
    let s1 := ((l.map (·.1)).eraseDups).foldl (fun st core => st.loadLocal n core) (s.takeCores k.asid k.exch (l.map (·.1)))
    s.dispatchNow n = ({ s1 with kernels := s1.kernels.put n { k with
      phase := .dispatched, dispatchTick := dispatchTick s.ticks k.detlvl,
      placed := l.map (fun (p : Nat × Occ) => (p.1, p.2.slot, p.2.xbase, p.2.vbase, p.2.wheel)) } }.modQueue k.queue
        (fun q => { q with begun := true })).sched_ (dispatchTick s.ticks k.detlvl) rankLast (.threadCreation n) := by
  simp only [State.dispatchNow, hk, hc, hw, hl, hp, h, hs, Option.getD_some, hr]
  rfl

end Dispatch

theorem launchesAreDispatched : Statements.LaunchesAreDispatched := by
  refine fun s n k c hk hc => ⟨fun h => ?_, fun hw hl hp => ⟨fun h => ?_, fun h hn => ?_, fun l h hs hr => ?_, fun l h hs hr => ?_⟩⟩
  · rw [exec_dispatch, State.dispatchNow_of_not_due hk hc h]
  · rw [exec_dispatch, State.dispatchNow_of_other_exch hk hc hw hl hp h]; rfl
  · rw [exec_dispatch, State.dispatchNow_of_no_place hk hc hw hl hp (by simpa using h) hn]
  · rw [exec_dispatch, State.dispatchNow_of_restores hk hc hw hl hp (by simpa using h) hs hr]
  · obtain ⟨hle, hnow, hdet2⟩ := dispatchTick_spec s.ticks k.detlvl
    exact ⟨dispatchTick s.ticks k.detlvl, hle, hnow, hdet2, congrArg Host.Outcome.next
      (State.dispatchNow_of_place hk hc hw hl hp (by simpa using h) hs hr)⟩

/-! ### The threads of a launch (R45, R334) -/

theorem Thread.getX_setX_same (th : Thread) {r : XReg} (v : W64) (h : r ≠ 0) : (th.setX r v).getX r = v := by
  rw [Thread.setX, if_neg h, Thread.getX, if_neg h]
  exact Vector.getElem_set_self _

theorem Thread.getX_setX_ne (th : Thread) {r r' : XReg} (v : W64) (h : r' ≠ r) : (th.setX r v).getX r' = th.getX r' := by
  have hne : r.toNat ≠ r'.toNat := fun e => h (BitVec.eq_of_toNat_eq e.symm)
  unfold Thread.setX
  split
  · rfl
  · simp only [Thread.getX, Vector.getElem_set_ne _ _ hne]

@[simp] theorem Thread.getV_setX (th : Thread) (r : XReg) (v : W64) (n : VReg) : (th.setX r v).getV n = th.getV n := by
  unfold Thread.setX; split <;> rfl
@[simp] theorem Thread.getM_setX (th : Thread) (r : XReg) (v : W64) (n : MReg) : (th.setX r v).getM n = th.getM n := by
  unfold Thread.setX; split <;> rfl
@[simp] theorem Thread.getF_setX (th : Thread) (r : XReg) (v : W64) (n : MReg) : (th.setX r v).getF n = th.getF n := by
  unfold Thread.setX; split <;> rfl

section LaunchThread

variable (n i : Nat) (k : Kernel) (p : Nat × Nat × Nat × Nat × W64) (now : Nat)

/-- R45: the values that the registers of a launch's thread hold. -/
theorem launchThread_getX (r : XReg) : (launchThread n k i p now).getX r =
    if r = 4 then k.args else if r = 5 then BitVec.ofNat 64 i else if r = 6 then BitVec.ofNat 64 k.count else 0 := by
  unfold launchThread
  by_cases h6 : r = 6
  · subst h6; exact Thread.getX_setX_same _ _ (by decide)
  rw [Thread.getX_setX_ne _ _ h6]
  by_cases h5 : r = 5
  · subst h5; exact Thread.getX_setX_same _ _ (by decide)
  rw [Thread.getX_setX_ne _ _ h5]
  by_cases h4 : r = 4
  · subst h4; exact Thread.getX_setX_same _ _ (by decide)
  rw [Thread.getX_setX_ne _ _ h4, if_neg h4, if_neg h5, if_neg h6]
  simp [Thread.getX, newThread]

theorem launchThread_getV (r : VReg) : (launchThread n k i p now).getV r = 0 := by
  simp only [launchThread, Thread.getV_setX]
  exact Vector.getElem_replicate _

theorem launchThread_getM {r : MReg} (h : r ≠ 0) : (launchThread n k i p now).getM r = 0 := by
  simp only [launchThread, Thread.getM_setX]
  exact (if_neg h).trans (Vector.getElem_replicate _)

theorem launchThread_getF (r : MReg) : (launchThread n k i p now).getF r = 0 := by
  simp only [launchThread, Thread.getF_setX]
  exact Vector.getElem_replicate _

end LaunchThread

/-- The places of the threads of a kernel that are created next: 64 of them, or all that are left. -/
def Kernel.batch (k : Kernel) : List (Nat × Nat × Nat × Nat × W64) := (k.placed.drop k.created).take 64

/-- The state in which the threads of a kernel's batch have been created, and are counted. -/
def State.createBatch (n : Nat) (k : Kernel) : State :=
  ((k.batch.zip (List.range k.batch.length)).map (fun p => launchThread n k (k.created + p.2) p.1 s.ticks)).foldl
    State.putThread { s with kernels := s.kernels.put n { k with created := k.created + k.batch.length } }

theorem State.queue_foldl_putThread (q : Nat) : ∀ (ths : List Thread) (s : State),
    (ths.foldl State.putThread s).queue q = s.queue q
  | [], _ => rfl
  | th :: ths, s => State.queue_foldl_putThread q ths (s.putThread th)

@[simp] theorem State.queue_createBatch (n : Nat) (k : Kernel) (q : Nat) : (s.createBatch n k).queue q = s.queue q :=
  State.queue_foldl_putThread q _ _

section Creation

variable {s} {n : Nat} {k : Kernel} (hk : s.kernels.find? n = some k) (hp : k.phase = .dispatched)
include hk hp

/-- R334: the next batch follows a tick after one that was not the last. -/
theorem exec_threadCreation_of_more (hlt : k.created + k.batch.length < k.count) (hb : k.batch ≠ []) :
    exec (.threadCreation n) s = .next ((s.createBatch n k).after_ 1 rankLast (.threadCreation n)) := by
  have hif : (decide (k.created + k.batch.length < k.count) && !k.batch.isEmpty) = true := by simp [hlt, hb]
  simp only [exec_threadCreation, execThreadCreation, hk]
  exact congrArg Host.Outcome.next ((if_neg (fun hn => hn hp)).trans (if_pos hif))

/-- R299, R334: the last batch completes a LAUNCH whose effect has begun; the kernel may then have retired. -/
theorem exec_threadCreation_of_last (hge : k.count ≤ k.created + k.batch.length) : exec (.threadCreation n) s =
    .next ((if (s.queue k.queue).begun && packetType (wordAt (s.queue k.queue).words 0) = 1
      then (s.createBatch n k).completePacket k.queue else s.createBatch n k).tryRetire n) := by
  have hif : ¬(decide (k.created + k.batch.length < k.count) && !k.batch.isEmpty) = true := by simp [Nat.not_lt.2 hge]
  rw [← s.queue_createBatch n k k.queue]
  simp only [exec_threadCreation, execThreadCreation, hk]
  exact congrArg Host.Outcome.next ((if_neg (fun hn => hn hp)).trans (if_neg hif))

end Creation

theorem threadsAreCreated : Statements.ThreadsAreCreated := by
  refine ⟨fun s n k hk => ⟨fun hp => ?_, fun hp => ⟨fun hlt hb => ?_, fun hge hbegun hty => ?_, fun hge hbegun => ?_⟩⟩,
    fun n i k p now => ⟨rfl, rfl, rfl, rfl, rfl, rfl, rfl, rfl, rfl, rfl, rfl, rfl, rfl, rfl, rfl,
      launchThread_getX n i k p now, launchThread_getV n i k p now, fun r => launchThread_getM n i k p now,
      launchThread_getF n i k p now⟩⟩
  · simp only [exec_threadCreation, execThreadCreation, hk, if_pos hp]
  · exact exec_threadCreation_of_more hk hp hlt hb
  · rw [exec_threadCreation_of_last hk hp hge, hbegun, hty]; rfl
  · rw [exec_threadCreation_of_last hk hp hge, hbegun]; rfl

/-! ### FENCE (R329, R331) -/

theorem fenceComparisons : Statements.FenceComparisons :=
  fun _ _ => ⟨rfl, rfl, rfl, rfl, rfl, rfl, rfl⟩

section Fence

variable {s} {q : Nat} {c : Ctx} {ws : List W64} (h : Statements.atHead s q 2 c ws)
include h

/-- R34, R331: the next condition of the pass is read; a poisoned cell is counted, and gives what it reads. -/
theorem exec_fencePacketPass_of_more (hlt : (s.queue q).cond < condCount ws) : exec (.fencePacketPass q) s =
    .next ((if s.mem.poisoned ((condAddr ws (s.queue q).cond).toNat / 8) then s.count (s.queue q).ctx 8 1 else s).fenceGot q
      (some (s.mem.word (condAddr ws (s.queue q).cond).toNat))) := by
  obtain ⟨hp, hc, hl, ht⟩ := h
  simp [exec_fencePacketPass, execFencePacketPass, hp, hc, hl, ht, hlt]

theorem exec_fencePacketPass_of_all (hge : condCount ws ≤ (s.queue q).cond) :
    exec (.fencePacketPass q) s = .next (s.fenceBegin q) := by
  obtain ⟨hp, hc, hl, ht⟩ := h
  simp [exec_fencePacketPass, execFencePacketPass, hp, hc, hl, ht, Nat.not_lt.2 hge]

/-- A pass whose conditions have all been read ends the FENCE when they have held, and is followed by another one when not. -/
theorem State.fenceNext_of_all (hge : condCount ws ≤ (s.queue q).cond) : s.fenceNext q =
    if (s.queue q).holds then s.completePacket q else s.sched_ ((s.queue q).passAt + 64) rankLand (.fencePacketPass q) := by
  have hw := words_of_atHead h
  obtain ⟨-, hc, hl, -⟩ := h
  simp [State.fenceNext, hw, hc, hl, Nat.not_lt.2 hge]

/-- R331: what follows when the last condition of a pass has been read. -/
theorem State.fenceGot_last (v : W64) (hlast : (s.queue q).cond + 1 = condCount ws) :
    let s1 := s.modQueue q (fun r => { r with
      cond := (s.queue q).cond + 1
      holds := r.holds && fenceHolds (condCmp ws (s.queue q).cond) v (condVal ws (s.queue q).cond)
      req := none, acc := none })
    s.fenceGot q (some v) =
      if (s.queue q).holds && fenceHolds (condCmp ws (s.queue q).cond) v (condVal ws (s.queue q).cond) then s1.completePacket q
      else s1.sched_ ((s.queue q).passAt + 64) rankLand (.fencePacketPass q) := by
  intro s1
  have hgot : s.fenceGot q (some v) = s1.fenceNext q := by
    rw [State.fenceGot, words_of_atHead h]; rfl
  have hrec : s1.queue q = _ := s.queue_modQueue_same q _
  rw [hgot, State.fenceNext_of_all (atHead_modQueue h rfl rfl) (by rw [hrec]; exact Nat.le_of_eq hlast.symm), hrec]

end Fence

theorem fencePacketsWait : Statements.FencePacketsWait := by
  refine fun s q c ws h => ⟨fun e he => ?_, fun hn => ?_, fun hlt => ⟨fun hp => ?_, fun hp => ?_⟩,
    exec_fencePacketPass_of_all h, fun v hlast => ⟨fun hh hv => ?_, fun hf => ?_⟩⟩
  · rw [exec_fencePacket, execFencePacket, withPacket_of_atHead h]
    simp only [he]
  · rw [exec_fencePacket, execFencePacket, withPacket_of_atHead h]
    simp only [hn]
  · rw [exec_fencePacketPass_of_more h hlt, hp]; rfl
  · rw [exec_fencePacketPass_of_more h hlt, if_pos hp]
  · rw [State.fenceGot_last h v hlast, hh, hv]; rfl
  · rw [State.fenceGot_last h v hlast]
    rcases hf with hh | hv
    · rw [hh]; rfl
    · rw [hv, Bool.and_false]; rfl

/-! ### SIGNAL (R331, R458) -/

section Signal

variable {s} {q : Nat} {c : Ctx} {ws : List W64} (h : Statements.atHead s q 3 c ws)
include h

/-- R331, R458: the interrupt goes to the function that owns the queue. -/
theorem State.signalDone_of_owner {vf : Nat} (hvf : s.queueOwner q = some vf) : s.signalDone q =
    (if signalIrq ws then s.interrupt (1 + vf) (fld (wordAt ws 3) 2 11) else s).completePacket q := by
  rw [State.signalDone, words_of_atHead h, hvf]; rfl

theorem State.signalDone_of_no_irq (hi : signalIrq ws = false) : s.signalDone q = s.completePacket q := by
  rw [State.signalDone, words_of_atHead h, hi]; rfl

theorem State.signalGo_of_not_allowed (ha : s.signalAllowed c ws = false) : s.signalGo q = s.rejectPacket q 0x02 := by
  have hw := words_of_atHead h
  obtain ⟨-, hc, -, -⟩ := h
  simp only [State.signalGo, hw, hc, ha]
  rfl

/-- R331: the write goes to host memory, to the NI or to its cell. -/
theorem State.signalGo_of_allowed (ha : s.signalAllowed c ws = true) : s.signalGo q =
    if signalHost ws then ({ s with host := { s.host with
        mem := hostWrite s.host.mem (signalAddr ws).toNat (leBytes 8 (wordAt ws 2).toNat) } } : State).signalDone q
    else if bit (signalAddr ws) 63 then s.queueAccess q (signalAddr ws) (signalCell ws)
    else (s.performAt ((List.range 8).map (fun i => .byte ((signalAddr ws).toNat + i))) (signalCell ws) false).2.signalDone q := by
  have hw := words_of_atHead h
  obtain ⟨-, hc, -, -⟩ := h
  simp only [State.signalGo, hw, hc, ha]
  rfl

/-- R331: the SIGNAL waits for the kernels before it. -/
theorem exec_signal_of_earlier (hn : s.signalFault c ws = none) (he : s.earlierKernels q = true) :
    exec (.signal q) s = .next (s.packetWaits q) := by
  rw [exec_signal, execSignal, withPacket_of_atHead h]
  simp [hn, he]

variable (hb : (s.queue q).begun = false)
include hb

theorem exec_signal_of_fault {e : Nat} (he : s.signalFault c ws = some e) : exec (.signal q) s = .next (s.rejectPacket q e) := by
  rw [exec_signal, execSignal, withPacket_of_atHead h]
  simp only [he, hb]
  rfl

/-- R331: the write follows once the kernels before it have retired, when it is not on its way already. -/
theorem exec_signal_of_free (hn : s.signalFault c ws = none) (he : s.earlierKernels q = false)
    (ht : ∀ t ∈ s.sched.timers, t.2.2 ≠ .signalWrite q) (ha : .signalWrite q ∉ s.sched.agenda) : exec (.signal q) s =
    .next (((s.packetWaits q).modQueue q (fun x => { x with acc := some s.ticks })).later 0 rankLand (.signalWrite q)) := by
  have hunder : (s.sched.timers.any (fun t => t.2.2 == .signalWrite q) || s.sched.agenda.contains (.signalWrite q)) = false := by
    simpa [ha] using ht
  rw [exec_signal, execSignal, withPacket_of_atHead h]
  simp only [hn, he, hb, hunder]
  rfl

theorem exec_signalWrite_of_atHead : exec (.signalWrite q) s = .next (s.signalGo q) := by
  rw [exec_signalWrite, execSignalWrite, withPacket_of_atHead h, if_neg (by simp [hb])]

end Signal

theorem signalsAreWritten : Statements.SignalsAreWritten := by
  refine fun s q c ws h hb => ⟨fun e => exec_signal_of_fault h hb, fun hn => ⟨exec_signal_of_earlier h hn,
    exec_signal_of_free h hb hn⟩, fun ha => ?_, fun ha => ⟨fun hh => ?_, fun hh hg => ?_, fun hh hg => ?_⟩,
    State.signalDone_of_no_irq h, fun vf hi hvf => ?_⟩
  · rw [exec_signalWrite_of_atHead h hb, State.signalGo_of_not_allowed h ha]
  · rw [exec_signalWrite_of_atHead h hb, State.signalGo_of_allowed h ha, if_pos hh]
  · rw [exec_signalWrite_of_atHead h hb, State.signalGo_of_allowed h ha, hh, hg]; rfl
  · rw [exec_signalWrite_of_atHead h hb, State.signalGo_of_allowed h ha, hh, hg]; rfl
  · rw [State.signalDone_of_owner h hvf, if_pos hi]

/-- Settles O45: each packet follows the branches of its operation, once the packet at the head of its queue and the context of the
queue are known; the queue that starts has the highest PRIO by the running maximum, and the last reading of a pass of a FENCE
leaves the packet at the head. -/
theorem queuePacketsRun : Obligations.QueuePacketsRun :=
  ⟨packetsStart, packetsEnd, launchesAreAccepted, launchesAreDispatched, threadsAreCreated, fenceComparisons, fencePacketsWait,
    signalsAreWritten⟩

end Sys2Proof.Machine
